-- ==== Sys2Proof/Word.lean ====
section
/-! DEFINITION. The words of the block (R10, R11): every value is unsigned, bit 0 is the least significant. -/

namespace Sys2Proof

/-- A command word or a register (R10). -/
abbrev Word := BitVec 32

/-- A colour channel (R10), or one byte of the memory that holds the frame buffer (R50). -/
abbrev Byte := BitVec 8

/-- A pulse code word: one slot of the frame buffer (R10, R77). -/
abbrev Code := BitVec 16

/-- The data lanes of the host's bus: wide enough for an access of 8 bytes, the widest R52 names. -/
abbrev BusData := BitVec 64

/-- The level of the output line at a tick (R13, R37). -/
inductive Level where
  | low
  | high
  deriving DecidableEq, Repr, Inhabited

/-- A colour: red, green and blue intensities (R16). -/
structure Color where
  r : Byte
  g : Byte
  b : Byte
  deriving DecidableEq, Repr

end Sys2Proof
end

