-- ==== Sys2Proof/Syntax.lean ====
section
/-! DEFINITION. The seven commands of the opcode map (R74). -/

namespace Sys2Proof

/-- One constructor per row of spec/opcode_table.json (R74). Only PUSH has an operand, its colour (R76). -/
inductive Instr where
  /-- INIT: construct and bind (R160). -/
  | init
  /-- BEGIN: start encoding a frame (R111). -/
  | beginFrame
  /-- PUSH r, g, b: encode one colour into the next chunk (R112). -/
  | push (r g b : Byte)
  /-- TRIG: trigger one sequencer pass (R120). -/
  | trig
  /-- WAITB: blocking completion wait (R140). -/
  | waitb
  /-- WAITS: suspending completion wait (R141). -/
  | waits
  /-- CANCEL: external cancellation of a suspended wait (R143). -/
  | cancel
  deriving DecidableEq, Repr

end Sys2Proof
end

