-- ==== Sys2Proof/WellFormed.lean ====
section
/-! DEFINITION. What is well formed: a command (always), a command word (R71, R75), a frame's colours (R84). -/

namespace Sys2Proof

/-- The check on a command's operands. It refuses nothing: PUSH's three operands are bytes by type, every 24-bit
colour is valid (R73), and no other command has an operand (R72). -/
def Instr.wellFormed : Instr → Bool
  | .init => true
  | .beginFrame => true
  | .push _ _ _ => true
  | .trig => true
  | .waitb => true
  | .waits => true
  | .cancel => true

/-- First check on a command word: its opcode, bits [31:24], is one of 0x01 to 0x07 (R74, R75). -/
def wordOpcodeLegal (w : Word) : Bool :=
  decide (1 ≤ (w.extractLsb' 24 8).toNat) && decide ((w.extractLsb' 24 8).toNat ≤ 7)

/-- Second check on a command word: bits [23:0] are 0 unless the opcode is PUSH's (R71, R72, R73). -/
def wordReservedClear (w : Word) : Bool :=
  w.extractLsb' 24 8 == 0x03#8 || w.extractLsb' 0 24 == 0#24

/-- A command word the decoder accepts (R71, R75). -/
def wordWellFormed (w : Word) : Bool := wordOpcodeLegal w && wordReservedClear w

/-- The precondition of WRITE.B and WRITE.S: at most one colour for each LED (R84). -/
def frameWellFormed (ledCount : Nat) (colours : List Color) : Bool := decide (colours.length ≤ ledCount)

end Sys2Proof
end

