-- ==== Sys2Proof/Decode.lean ====
section
/-! DEFINITION. The command word (R70 to R76): its decoder, total on 32-bit values, the opcode map, and the encoder. -/

namespace Sys2Proof

/-- The opcode field OP, bits [31:24] (R71). -/
def opcodeOf (w : Word) : BitVec 8 := w.extractLsb' 24 8

/-- The OPERAND field, bits [23:0] (R71). -/
def operandOf (w : Word) : BitVec 24 := w.extractLsb' 0 24

/-- PUSH's red intensity, bits [23:16] (R73). -/
def redOf (w : Word) : Byte := w.extractLsb' 16 8

/-- PUSH's green intensity, bits [15:8] (R73). -/
def greenOf (w : Word) : Byte := w.extractLsb' 8 8

/-- PUSH's blue intensity, bits [7:0] (R73). -/
def blueOf (w : Word) : Byte := w.extractLsb' 0 8

/-- Why a word is no command (R75). Both raise ILLEGAL_COMMAND. -/
inductive DecodeError where
  /-- OP is 0x00 or 0x08 to 0xFF. -/
  | reservedOpcode (op : BitVec 8)
  /-- A format-N word with a bit of [23:0] set. -/
  | reservedBits (op : BitVec 8) (operand : BitVec 24)
  deriving DecidableEq, Repr

/-- A format-N command: it stands only if the operand bits are 0 (R72). -/
def formatN (w : Word) (i : Instr) : Except DecodeError Instr :=
  if operandOf w = 0#24 then .ok i else .error (.reservedBits (opcodeOf w) (operandOf w))

/-- The decode procedure (R71), total on every 32-bit value. -/
def decode (w : Word) : Except DecodeError Instr :=
  if opcodeOf w = 0x01#8 then formatN w .init
  else if opcodeOf w = 0x02#8 then formatN w .beginFrame
  else if opcodeOf w = 0x03#8 then .ok (.push (redOf w) (greenOf w) (blueOf w))
  else if opcodeOf w = 0x04#8 then formatN w .trig
  else if opcodeOf w = 0x05#8 then formatN w .waitb
  else if opcodeOf w = 0x06#8 then formatN w .waits
  else if opcodeOf w = 0x07#8 then formatN w .cancel
  else .error (.reservedOpcode (opcodeOf w))

/-- The command's row of the opcode map: a word selects it when its masked bits equal the match value (R74). -/
structure OpcodeRow where
  matchBits : Word
  mask : Word
  deriving DecidableEq, Repr

/-- The opcode map (R74), in its order. -/
def opcodeMap : List OpcodeRow :=
  [ ⟨0x01000000#32, 0xFFFFFFFF#32⟩, ⟨0x02000000#32, 0xFFFFFFFF#32⟩, ⟨0x03000000#32, 0xFF000000#32⟩,
    ⟨0x04000000#32, 0xFFFFFFFF#32⟩, ⟨0x05000000#32, 0xFFFFFFFF#32⟩, ⟨0x06000000#32, 0xFFFFFFFF#32⟩,
    ⟨0x07000000#32, 0xFFFFFFFF#32⟩ ]

/-- The row a command belongs to. -/
def rowOf : Instr → OpcodeRow
  | .init => ⟨0x01000000#32, 0xFFFFFFFF#32⟩
  | .beginFrame => ⟨0x02000000#32, 0xFFFFFFFF#32⟩
  | .push _ _ _ => ⟨0x03000000#32, 0xFF000000#32⟩
  | .trig => ⟨0x04000000#32, 0xFFFFFFFF#32⟩
  | .waitb => ⟨0x05000000#32, 0xFFFFFFFF#32⟩
  | .waits => ⟨0x06000000#32, 0xFFFFFFFF#32⟩
  | .cancel => ⟨0x07000000#32, 0xFFFFFFFF#32⟩

/-- A word selects a row (R74). -/
def rowSelects (row : OpcodeRow) (w : Word) : Bool := (w &&& row.mask) == row.matchBits

/-- The word of a command (R72, R73, R82). -/
def encode : Instr → Word
  | .init => 0x01000000#32
  | .beginFrame => 0x02000000#32
  | .push r g b => 0x03#8 ++ r ++ g ++ b
  | .trig => 0x04000000#32
  | .waitb => 0x05000000#32
  | .waits => 0x06000000#32
  | .cancel => 0x07000000#32

/-- The command in an instruction of the opcode table whose low `nbits` bits are `w` and whose other bits are 0. One
store to CMD delivers the whole 32-bit word, so the table's numbering of bits is the word's own (R51, R70). -/
def decodeTableWord (nbits w : Nat) : Option Instr :=
  if nbits ≤ 32 then
    match decode (BitVec.ofNat 32 (w % 2 ^ nbits)) with
    | .ok i => some i
    | .error _ => none
  else none

end Sys2Proof
end

