-- ==== Sys2Proof/Config.lean ====
section
/-! DEFINITION. What an implementation fixes (R9) and the free values (R13, R38). An opaque constant here has no body:
no proof can see its value. -/

namespace Sys2Proof.Config

/-- The parameters of R9, fixed for a launch (R38). -/
structure Params where
  /-- `N`, the LED count (R7). -/
  ledCount : Nat
  /-- `MAX_SLOTS`, the largest slot count of one pass. -/
  maxSlots : Nat
  /-- `MAX_GAP_TICKS`, the largest reset-gap count. -/
  maxGapTicks : Nat
  /-- `START_LATENCY_TICKS`, from an accepted trigger to slot 0. -/
  startLatency : Nat
  /-- `TRIG_MAY_REFUSE`: an idle sequencer may still refuse a trigger. -/
  trigMayRefuse : Bool
  /-- `TIMER_MAY_FAIL`: the completion timer may fail. -/
  timerMayFail : Bool
  /-- `LINE_PRE_INIT`, the line's level before INIT. -/
  linePreInit : Level
  /-- `OUTPUT_PIN`, the pin that INIT binds. -/
  outputPin : Nat
  /-- `PIN_VALID` at `OUTPUT_PIN`. -/
  pinValid : Bool
  /-- `DRIVE`, with no logical effect (R172). -/
  drive : Nat
  /-- `BLOCK_BASE`, where the register window starts. -/
  blockBase : Nat
  deriving DecidableEq, Repr

/-- `N` of the launch, OPEN (R7, R9). -/
opaque ledCount : Nat
/-- `START_LATENCY_TICKS` of the launch, OPEN (R9, D7). -/
opaque startLatency : Nat
/-- `LINE_PRE_INIT` of the launch, OPEN (R9, D9). -/
opaque linePreInit : Level
/-- `OUTPUT_PIN` of the launch, OPEN (R9, D29). -/
opaque outputPin : Nat
/-- `PIN_VALID(OUTPUT_PIN)` of the launch, OPEN (R9, D29). -/
opaque pinValid : Bool
/-- `DRIVE` of the launch, OPEN (R9, D28). -/
opaque drive : Nat
/-- `BLOCK_BASE` of the launch, OPEN (R9, D2). -/
opaque blockBase : Nat

/-- The launch's parameters: the spec's default where it states one (R9), else a free value (log 5). -/
def params : Params where
  ledCount := ledCount
  maxSlots := 32767
  maxGapTicks := 16777215
  startLatency := startLatency
  trigMayRefuse := true
  timerMayFail := false
  linePreInit := linePreInit
  outputPin := outputPin
  pinValid := pinValid
  drive := drive
  blockBase := blockBase

/-- `INIT_BUFFER`: the value of slot `i` before anything is written to it, after the `k`-th power-on (R32, R42, D18). A free
value (log 8). -/
opaque initBuffer (k i : Nat) : Code

/-- `draw trig_refuse` (R120, D14): the `k`-th draw. A free value (log 6). -/
opaque trigRefuse (k : Nat) : Bool

/-- `draw timer_fail` (R145, D20): the `k`-th draw. A free value (log 6). -/
opaque timerFail (k : Nat) : Bool

/-- `draw latch_value` (R124, R128, D25): the `k`-th draw. A free value (log 6). -/
opaque latchValue (k : Nat) : Code

/-- `draw any_value` of a load while FAULT = 1 (R161, R182, D30): the `k`-th draw. A free value (log 6). -/
opaque anyValue (k : Nat) : BusData

/-- `WAVE_OTHER(w, t)`: the level at tick `t` of a period that holds the non-canonical word `w` (R125, D5), a fresh
draw `k` for each tick. A free value (log 7). -/
opaque waveOther (k : Nat) (w : Code) (t : Nat) : Level

end Sys2Proof.Config
end

