-- ==== Sys2Proof/Machine/State.lean ====
section
/-! DEFINITION. The state of the block, its reset, and the reasons a step can stop. -/

namespace Sys2Proof.Machine

/-- STATUS.STATE: the ownership state (R24, R25). -/
inductive Owner where
  | uninit
  | idle
  | encoding
  | transmitting
  | waiting
  deriving DecidableEq, Repr

/-- STATUS.WMODE: which wait started WAITING (R26). -/
inductive WaitMode where
  | blocking
  | suspending
  deriving DecidableEq, Repr

/-- STATUS.RESULT: the block's only condition flag (R27). -/
inductive ResultFlag where
  | none
  | ok
  | triggerError
  deriving DecidableEq, Repr

/-- The causes of a recorded fault (R180). -/
inductive Cause where
  | configError
  | suspensionFailure
  | illegalCommand
  | protocolViolation
  | ownershipViolation
  | accessFault
  | capacityOverflow
  deriving DecidableEq, Repr

/-- `seq.phase` (R34). -/
inductive SeqPhase where
  /-- idle -/
  | off
  /-- start latency -/
  | lat
  /-- sending slots -/
  | bits
  /-- reset gap -/
  | gap
  deriving DecidableEq, Repr

/-- The sequencer's hidden state (R34). -/
structure Sequencer where
  phase : SeqPhase
  /-- latency or gap ticks left -/
  cnt : Nat
  /-- the current slot -/
  slot : Nat
  /-- the tick within the current bit period -/
  tick : Nat
  /-- the word latched for the current slot -/
  word : Code
  /-- the slots written during the pass before they were latched, a strictly rising list (log 11) -/
  dirty : List Nat
  deriving DecidableEq, Repr

/-- The completion timer's hidden state (R35). -/
structure Timer where
  remain : Nat
  failed : Bool
  deriving DecidableEq, Repr

/-- What INIT binds the sequencer to (R160, R172). -/
structure Binding where
  pin : Nat
  drive : Nat
  deriving DecidableEq, Repr

/-- What a write returns to its caller (R84, R170). -/
inductive WriteResult where
  | ok
  | triggerError
  deriving DecidableEq, Repr

/-- An address the host forms (R165): the block's base plus a 17-bit offset, or any address of the host's space. -/
inductive HostAddr where
  | window (off : BitVec 17)
  | absolute (a : Nat)
  deriving DecidableEq, Repr

/-- The frame buffer's memory (R32, R50): slot `i` at bytes `2i` and `2i+1`, little-endian. -/
structure FrameBuffer where
  /-- which power-on's INIT_BUFFER an unwritten byte holds (log 8) -/
  powerOn : Nat
  /-- the bytes written since, addresses strictly rising -/
  cells : List Host.Cell
  deriving DecidableEq, Repr

/-- One step of the host's program (R161 to R164, R167). -/
inductive HostOp where
  /-- a bus load of `n` bytes -/
  | load (addr : HostAddr) (n : Nat)
  /-- a bus store of `n` bytes -/
  | store (addr : HostAddr) (n : Nat) (v : BusData)
  /-- WRITE's `s <- LD32 STATUS` and the branch on `s[5:4]` that follows it (R84, R85) -/
  | checkResult (mode : WaitMode)
  /-- WRITE's return (R84, R170); Ok is returned only after the full delay (R147) -/
  | finishWrite (r : WriteResult)
  deriving DecidableEq, Repr

/-- What comes next: a tick of the clock, a step of the host on behalf of a task (R14, R142), or power-on reset (R200). -/
inductive Event where
  | tick
  | powerOn
  | host (task : Nat) (op : HostOp)
  deriving DecidableEq, Repr

/-- What the host's last step gave back to the program. -/
inductive Reply where
  /-- a store, or no step yet -/
  | none
  /-- the value a load returned, zero-extended -/
  | value (v : BusData)
  /-- the step raised a fault: it is marked, and a load returned no value (R153, R181) -/
  | faulted (c : Cause)
  /-- the address does not belong to the block (R165) -/
  | elsewhere
  deriving DecidableEq, Repr

/-- The host agent, as far as the block's rules speak of it (R36, R141, R142, R167). -/
structure HostAgent where
  /-- `host.blocked`: a WAITB is waiting (R36) -/
  blocked : Bool
  /-- the calling task that a WAITS suspended (R141) -/
  suspended : Option Nat
  /-- the task whose step is running, or ran last -/
  task : Nat
  /-- what the last step gave back -/
  reply : Reply
  /-- what the writes returned, newest first (R170) -/
  results : List (Nat × WriteResult)
  /-- the tasks whose wait lasted its full delay and whose write has not returned since (R147, log 22) -/
  elapsed : List Nat
  deriving DecidableEq, Repr

/-- The state of the block and, below it, the model's own fields for the inputs that reach it. -/
structure State where
  /-- the parameters of the launch, which no step changes (R38, log 4) -/
  cfg : Config.Params
  /-- STATUS.STATE (R24, R25) -/
  owner : Owner
  /-- STATUS.WMODE (R26) -/
  wmode : WaitMode
  /-- STATUS.RESULT (R27) -/
  result : ResultFlag
  /-- STATUS.FAULT (R28) -/
  fault : Bool
  /-- STATUS.FCODE (R28, R180) -/
  fcode : BitVec 4
  /-- CURSOR (R29) -/
  cursor : Nat
  /-- the frame buffer (R32) -/
  buf : FrameBuffer
  /-- the sequencer (R34) -/
  seq : Sequencer
  /-- the completion timer (R35) -/
  timer : Timer
  /-- the host agent (R36) -/
  host : HostAgent
  /-- the output line's level (R37) -/
  line : Level
  /-- the level of every tick so far, newest first (R37) -/
  trace : List Level
  /-- what INIT bound; none before INIT (R160) -/
  binding : Option Binding
  /-- the events to come, in order (R14, R167, log 1) -/
  agenda : List Event
  /-- how many draws were taken (log 6) -/
  draws : Nat
  deriving DecidableEq, Repr

/-- The reasons a step stops the machine with a fault: none. The block records its faults in STATUS and goes on
(R181, R182), and the clock ticks in every state (R214). Safe: nothing raises one. -/
inductive Fault where
  deriving DecidableEq, Repr

/-- The reasons a step is refused. -/
inductive Refusal where
  /-- an instruction that has no meaning yet; raised by an arm of exec, of which there is none now. Safe. -/
  | notModelled (mnemonic : String)
  deriving DecidableEq, Repr

/-- Power-on reset (R42, R200) under the given parameters. -/
def State.resetWith (cfg : Config.Params) : State where
  cfg := cfg
  owner := .uninit
  wmode := .blocking
  result := .none
  fault := false
  fcode := 0#4
  cursor := 0
  buf := { powerOn := 0, cells := [] }
  seq := { phase := .off, cnt := 0, slot := 0, tick := 0, word := 0#16, dirty := [] }
  timer := { remain := 0, failed := false }
  host := { blocked := false, suspended := none, task := 0, reply := .none, results := [], elapsed := [] }
  line := cfg.linePreInit
  trace := []
  binding := none
  agenda := []
  draws := 0

/-- The machine right after power-on reset (R42, R200). -/
def State.reset : State := State.resetWith Config.params

end Sys2Proof.Machine
end

