-- ==== Sys2Proof/Machine/Timing.lean ====
section
/-! DEFINITION. The timing constants and the pulse codes (R100 to R108), derived from the protocol's nanoseconds. -/

namespace Sys2Proof.Machine

/-- `ceil_div` (R12). -/
def ceilDiv (a b : Nat) : Nat := (a + b - 1) / b

/-- `round_half_up(a / b)` (R12). -/
def roundHalfUp (a b : Nat) : Nat := (2 * a + b) / (2 * b)

/-- TICKS_PER_US: the pulse clock rate (R8, R30). -/
def ticksPerUs : Nat := 16

/-- `to_ticks`: nanoseconds to ticks, rounded half up (R100). -/
def toTicks (ns : Nat) : Nat := roundHalfUp (ns * ticksPerUs) 1000

/-- ZERO_DUTY: the high time of a 0 bit, 400 ns (R101). -/
def zeroDuty : Nat := toTicks 400

/-- ONE_DUTY: the high time of a 1 bit, 800 ns (R101). -/
def oneDuty : Nat := toTicks 800

/-- PERIOD_TICKS: the bit period, 1250 ns (R101). -/
def periodTicks : Nat := toTicks 1250

/-- RESET_US: the minimum reset gap in microseconds (R30, R101). -/
def resetUs : Nat := 270

/-- RESET_TICKS: the reset gap in ticks (R101, R108). -/
def resetTicks : Nat := toTicks (resetUs * 1000)

/-- MARKER_BIT (R77). -/
def markerBit : Code := 0x8000#16

/-- ZERO_CODE: the marker and the duty of a 0 bit (R102). -/
def zeroCode : Code := markerBit ||| BitVec.ofNat 16 zeroDuty

/-- ONE_CODE: the marker and the duty of a 1 bit (R102). -/
def oneCode : Code := markerBit ||| BitVec.ofNat 16 oneDuty

/-- CAP: the slots of the frame buffer (R7, R32). -/
def capacity (p : Config.Params) : Nat := 24 * p.ledCount

/-- DELAY_US: the completion delay in microseconds (R104). -/
def delayUs (p : Config.Params) : Nat := ceilDiv (p.ledCount * 24 * 1250) 1000 + resetUs

/-- The completion delay in ticks, which a wait loads into the timer (R140, R144). -/
def delayTicks (p : Config.Params) : Nat := ticksPerUs * delayUs p

/-- CONFIG_OK, INIT's check (R160). -/
def configOk (p : Config.Params) : Bool :=
  decide (1 ≤ p.ledCount)
    && decide (capacity p ≤ p.maxSlots)
    && decide (0 < zeroDuty ∧ zeroDuty < oneDuty ∧ oneDuty < periodTicks ∧ periodTicks ≤ 0x7FFF)
    && decide (1 ≤ resetTicks ∧ resetTicks ≤ p.maxGapTicks)
    && p.pinValid
    && decide (capacity p % 24 = 0)

end Sys2Proof.Machine
end

