-- ==== Sys2Proof/Machine/Ops.lean ====
section
/-! DEFINITION. The named operations over the buffer's memory, the dirty slots, faults, replies and the line. Recording a
fault is the block's only exception (R181, R187); there is no return from one (R188). -/

namespace Sys2Proof.Machine

/-! ### Memory: the bytes of the frame buffer -/

/-- The byte listed at an address, if anything was ever written there. An unlisted address holds no value. -/
def Mem.lookup : List Host.Cell → Nat → Option Byte
  | [], _ => none
  | (a, b) :: m, x => if x = a then some b else Mem.lookup m x

/-- Write one byte: addresses stay strictly rising. -/
def Mem.put : List Host.Cell → Nat → Byte → List Host.Cell
  | [], x, v => [(x, v)]
  | (a, b) :: m, x, v =>
    if x < a then (x, v) :: (a, b) :: m
    else if x = a then (x, v) :: m
    else (a, b) :: Mem.put m x v

/-- All addresses lie above a bound and rise strictly. -/
def Mem.risesFrom : Nat → List Host.Cell → Bool
  | _, [] => true
  | lo, (a, _) :: m => decide (lo ≤ a) && Mem.risesFrom (a + 1) m

/-- The canonical form: addresses strictly rising. No listed byte equals what an unlisted address reads as, since that
holds no value of its own (log 8). -/
def Mem.wf (m : List Host.Cell) : Bool := Mem.risesFrom 0 m

/-- A byte of INIT_BUFFER: slot `i` at bytes `2i` (low) and `2i+1` (high) (R32, R50). -/
def initByte (k a : Nat) : Byte := (Config.initBuffer k (a / 2)).extractLsb' (8 * (a % 2)) 8

/-- The byte at an address of the buffer: what was written last, or INIT_BUFFER's free value (R32, D18). -/
def readByte (m : FrameBuffer) (a : Nat) : Byte := (Mem.lookup m.cells a).getD (initByte m.powerOn a)

/-- Write one byte of the buffer. -/
def writeByte (m : FrameBuffer) (a : Nat) (v : Byte) : FrameBuffer := { m with cells := Mem.put m.cells a v }

/-- `buf[i]` (R13, R32): the slot's two bytes, little-endian (R50). -/
def readSlot (m : FrameBuffer) (i : Nat) : Code := readByte m (2 * i + 1) ++ readByte m (2 * i)

/-- `buf[i] <- w` (R13, R32). -/
def writeSlot (m : FrameBuffer) (i : Nat) (w : Code) : FrameBuffer :=
  writeByte (writeByte m (2 * i) (w.extractLsb' 0 8)) (2 * i + 1) (w.extractLsb' 8 8)

/-! ### The dirty slots and the store of one slot -/

/-- Insert into a strictly rising list: set insertion. -/
def insertSlot (i : Nat) : List Nat → List Nat
  | [] => [i]
  | j :: d => if i < j then i :: j :: d else if i = j then j :: d else j :: insertSlot i d

/-- A strictly rising list. -/
def slotsRise (d : List Nat) : Bool := decide (d.Pairwise (· < ·))

/-- Slot `i` is not yet latched in the running pass (R128). -/
def unlatched (q : Sequencer) (i : Nat) : Bool :=
  match q.phase with
  | .lat => true
  | .bits => decide (q.slot < i)
  | .off => false
  | .gap => false

/-- Write one slot; if the running pass has not latched it, it becomes dirty (R112, R128, R162). -/
def storeSlot (i : Nat) (w : Code) (s : State) : State :=
  { s with
    buf := writeSlot s.buf i w
    seq := { s.seq with dirty := if unlatched s.seq i then insertSlot i s.seq.dirty else s.seq.dirty } }

/-! ### Faults -/

/-- The FCODE of a cause (R180). -/
def Cause.code : Cause → BitVec 4
  | .configError => 1#4
  | .suspensionFailure => 2#4
  | .illegalCommand => 3#4
  | .protocolViolation => 4#4
  | .ownershipViolation => 5#4
  | .accessFault => 6#4
  | .capacityOverflow => 7#4

/-- `raise Fault(code)`: FAULT is set, and FCODE keeps the first fault's code (R28, R181). -/
def recordFault (c : Cause) (s : State) : State :=
  { s with fault := true, fcode := if s.fault then s.fcode else c.code }

/-- A host step that raises a fault: the fault is recorded and the step marked (R181). Nothing else changes. -/
def raiseFault (c : Cause) (s : State) : State :=
  { recordFault c s with host := { s.host with reply := .faulted c } }

/-! ### Replies and draws -/

/-- The host's step gives a reply. -/
def setReply (r : Reply) (s : State) : State := { s with host := { s.host with reply := r } }

/-- The low `n` bytes of a value on the bus. -/
def truncBytes (n : Nat) (v : BusData) : BusData := BitVec.ofNat 64 (v.toNat % 2 ^ (8 * n))

/-- A load of `n` bytes that returns `draw any_value` (R163, R182): a free value. -/
def replyDraw (n : Nat) (s : State) : State :=
  { s with
    host := { s.host with reply := .value (truncBytes n (Config.anyValue s.draws)) }
    draws := s.draws + 1 }

/-! ### The host's events -/

/-- The events left on the agenda. -/
def setAgenda (rest : List Event) (s : State) : State := { s with agenda := rest }

/-! ### Power-on reset -/

/-- Power-on reset of a running machine (R42, R200): every piece of the block's state at its reset value, the buffer's
contents unspecified anew. The parameters, the host's program and the records of the run stay (log 17). A wait that it cuts
short did not last its delay, so its write does not return Ok (log 22). -/
def powerOnReset (rest : List Event) (s : State) : State :=
  { State.resetWith s.cfg with
    buf := { powerOn := s.buf.powerOn + 1, cells := [] }
    host := { s.host with blocked := false, suspended := none, reply := .none }
    trace := s.trace
    agenda := rest
    draws := s.draws }

/-! ### The line -/

/-- "INIT done" (R124): the sequencer has been bound. -/
def initDone (s : State) : Bool := s.binding.isSome

/-- One tick's level: it stands on the line and joins the output trace (R37). -/
def emit (l : Level) (s : State) : State := { s with line := l, trace := l :: s.trace }

end Sys2Proof.Machine
end

