-- ==== Sys2Proof/Machine/Operands.lean ====
section
/-! DEFINITION. The operand forms: the host's address (R165), the access check (R166), PUSH's colour as a chunk of slots
(R79, R80) and its inverse (R81). -/

namespace Sys2Proof.Machine

/-! ### Host addresses -/

/-- The size of the register window (R39). -/
def windowSize : Nat := 0x20000

/-- The offset of an address in the block's window; none if the access does not belong to the block (R165). -/
def HostAddr.resolve (p : Config.Params) : HostAddr → Option Nat
  | .window off => some off.toNat
  | .absolute a =>
    if p.blockBase ≤ a ∧ a < p.blockBase + windowSize then some (a - p.blockBase) else none

/-- A load or a store (R166). -/
inductive AccessKind where
  | load
  | store
  deriving DecidableEq, Repr

/-- `check_access` (R166): true if the access raises no ACCESS_FAULT. Registers are 32-bit and aligned; CMD is
write-only and the others are read-only; 0x034 to 0x0FF is reserved; slots are 16-bit and aligned; the rest is unmapped. -/
def accessOk (p : Config.Params) (kind : AccessKind) (off n : Nat) : Bool :=
  if off < 0x034 then
    decide (n = 4 ∧ off % 4 = 0) &&
      (match kind with
        | .load => decide (off ≠ 0x000)
        | .store => decide (off < 0x004))
  else if off < 0x100 then false
  else decide (off < 0x100 + 48 * p.ledCount ∧ n = 2 ∧ off % 2 = 0)

/-- The slot at a window offset (R22, R161). -/
def slotOfOffset (off : Nat) : Nat := (off - 0x100) / 2

/-- The window offset of slot `i` (R22, R83). -/
def offsetOfSlot (i : Nat) : Nat := 0x100 + 2 * i

/-! ### Colours and chunks -/

/-- `grb24`: green, then red, then blue (R79). -/
def grb24 (r g b : Byte) : BitVec 24 := g ++ r ++ b

/-- `code(bit)` (R79). -/
def codeOfBit (bit : Bool) : Code := if bit then oneCode else zeroCode

/-- Slot `k` of a colour's chunk: most significant bit first (R79, R80). -/
def chunkCode (r g b : Byte) (k : Nat) : Code := codeOfBit ((grb24 r g b).getLsbD (23 - k))

/-- Write slots `24c + k`, …, `24c + 23`, where `n` slots are left (R112). -/
def storeChunkFrom (c : Nat) (r g b : Byte) : Nat → State → State
  | 0, s => s
  | n + 1, s => storeChunkFrom c r g b n (storeSlot (24 * c + (23 - n)) (chunkCode r g b (23 - n)) s)

/-- Write a colour's 24 slots into chunk `c`, in one step (R53, R112). -/
def storeChunk (c : Nat) (r g b : Byte) (s : State) : State := storeChunkFrom c r g b 24 s

/-- The bit a slot's word stands for; none if it is neither code (R81). -/
def bitOfCode (w : Code) : Option Bool :=
  if w = oneCode then some true else if w = zeroCode then some false else none

/-- The bits of slots `i`, …, `i + n - 1`, the first one most significant, after the bits of `acc` (R81). -/
def decodeBits (m : FrameBuffer) : Nat → Nat → Nat → Option Nat
  | _, 0, acc => some acc
  | i, n + 1, acc =>
    match bitOfCode (readSlot m i) with
    | none => none
    | some bit => decodeBits m (i + 1) n (2 * acc + bit.toNat)

/-- `decode_chunk` (R81): the colour a chunk holds; none if any slot holds another word. -/
def decodeChunk (m : FrameBuffer) (c : Nat) : Option Color :=
  match decodeBits m (24 * c) 24 0 with
  | none => none
  | some n =>
    let v := BitVec.ofNat 24 n
    some { r := v.extractLsb' 8 8, g := v.extractLsb' 16 8, b := v.extractLsb' 0 8 }

end Sys2Proof.Machine
end

