-- ==== Sys2Proof/Machine/Flags.lean ====
section
/-! DEFINITION. STATUS and its fields (R24 to R28), and the register map as the host reads it (R22). -/

namespace Sys2Proof.Machine

/-- The value of STATE (R24). -/
def Owner.code : Owner → BitVec 3
  | .uninit => 0#3
  | .idle => 1#3
  | .encoding => 2#3
  | .transmitting => 3#3
  | .waiting => 4#3

/-- The value of WMODE (R24). -/
def WaitMode.bit : WaitMode → BitVec 1
  | .blocking => 0#1
  | .suspending => 1#1

/-- The value of RESULT (R24). -/
def ResultFlag.code : ResultFlag → BitVec 2
  | .none => 0#2
  | .ok => 1#2
  | .triggerError => 2#2

/-- STATUS (R24): reserved [31:12], FCODE [11:8], reserved [7], FAULT [6], RESULT [5:4], WMODE [3], STATE [2:0]. -/
def statusWord (s : State) : Word :=
  0#20 ++ s.fcode ++ 0#1 ++ BitVec.ofBool s.fault ++ s.result.code ++ s.wmode.bit ++ s.owner.code

/-- The RESULT field of a value read from STATUS, `s[5:4]` (R84). -/
def statusResult (v : BusData) : BitVec 2 := v.extractLsb' 4 2

/-- CURSOR as the host reads it: the low 16 bits, zero-extended (R29). -/
def cursorWord (s : State) : Word := 0#16 ++ BitVec.ofNat 16 s.cursor

/-- SEQCFG: REPEAT = 1, LOOP = 0, REFRESH = 0, reserved bits 0 (R31). -/
def seqcfgWord : Word := 0#22 ++ 0#1 ++ 0#1 ++ 1#8

/-- The register at an offset (R22, R30): the value of a legal 32-bit load. -/
def readRegister (off : Nat) (s : State) : Word :=
  match off with
  | 0x004 => statusWord s
  | 0x008 => cursorWord s
  | 0x00C => BitVec.ofNat 32 s.cfg.ledCount
  | 0x010 => BitVec.ofNat 32 (capacity s.cfg)
  | 0x014 => zeroCode.setWidth 32
  | 0x018 => oneCode.setWidth 32
  | 0x01C => BitVec.ofNat 32 periodTicks
  | 0x020 => BitVec.ofNat 32 resetTicks
  | 0x024 => BitVec.ofNat 32 resetUs
  | 0x028 => BitVec.ofNat 32 (delayUs s.cfg)
  | 0x02C => seqcfgWord
  | 0x030 => BitVec.ofNat 32 ticksPerUs
  | _ => 0#32

end Sys2Proof.Machine
end

