-- ==== Sys2Proof/Machine/Construction.lean ====
section
/-! DEFINITION. INIT: construct and bind (R160, R172). -/

namespace Sys2Proof.Machine

/-- A successful INIT: the sequencer is bound to the pin with the drive strength, the line is LOW, the block IDLE. -/
def construct (s : State) : State :=
  { s with
    binding := some { pin := s.cfg.outputPin, drive := s.cfg.drive }
    line := .low
    owner := .idle }

/-- INIT's effect (R160): once only, and fatal if CONFIG_OK fails. -/
def initEffect (s : State) : State :=
  if s.fault then s
  else if s.owner ≠ .uninit then raiseFault .protocolViolation s
  else if configOk s.cfg then construct s
  else raiseFault .configError s

/-- INIT (R160). -/
def execInit (s : State) : Host.Outcome State Fault Refusal := .next (initEffect s)

end Sys2Proof.Machine
end

