-- ==== Sys2Proof/Machine/Encoder.lean ====
section
/-! DEFINITION. The frame encoder: BEGIN (R111) and PUSH (R112). It never touches the sequencer, the timer or the line
(R110), but for the dirty marks of the race (R128). -/

namespace Sys2Proof.Machine

/-- The encoder takes the buffer (R111). -/
def startFrame (s : State) : State := { s with owner := .encoding, cursor := 0, result := .none }

/-- BEGIN's effect (R111). -/
def beginEffect (s : State) : State :=
  if s.fault then s
  else if s.owner ≠ .idle then raiseFault .protocolViolation s
  else startFrame s

/-- BEGIN (R111). -/
def execBegin (s : State) : Host.Outcome State Fault Refusal := .next (beginEffect s)

/-- `R.CURSOR <- c + 1` (R112). -/
def advanceCursor (s : State) : State := { s with cursor := s.cursor + 1 }

/-- One colour into the chunk at the cursor, and the cursor moves on (R112). -/
def encodeColour (r g b : Byte) (s : State) : State := advanceCursor (storeChunk s.cursor r g b s)

/-- PUSH's effect (R112). -/
def pushEffect (r g b : Byte) (s : State) : State :=
  if s.fault then s
  else if s.owner ≠ .encoding then raiseFault .protocolViolation s
  else if s.cursor = s.cfg.ledCount then raiseFault .capacityOverflow s
  else encodeColour r g b s

/-- PUSH r, g, b (R112). -/
def execPush (r g b : Byte) (s : State) : Host.Outcome State Fault Refusal := .next (pushEffect r g b s)

end Sys2Proof.Machine
end

