-- ==== Sys2Proof/Machine/Transmitter.lean ====
section
/-! DEFINITION. The sequence transmitter: TRIG (R120 to R122), and the sequencer's tick (R124, R125, R128). -/

namespace Sys2Proof.Machine

/-! ### TRIG -/

/-- The sequencer is busy (R34). -/
def busy (s : State) : Bool := decide (s.seq.phase ≠ .off)

/-- TRIG draws `trig_refuse`: only an idle sequencer, and only if it may refuse (R120). -/
def drawsRefusal (s : State) : Bool := !busy s && s.cfg.trigMayRefuse

/-- `refuse` (R120). -/
def refuses (s : State) : Bool := busy s || (s.cfg.trigMayRefuse && Config.trigRefuse s.draws)

/-- The draw is used up. -/
def countRefusalDraw (s : State) : State := { s with draws := if drawsRefusal s then s.draws + 1 else s.draws }

/-- `accept()` (R121). -/
def acceptTrigger (s : State) : State :=
  { s with
    result := .ok
    owner := .transmitting
    seq :=
      if s.cfg.startLatency = 0 then
        { s.seq with phase := .bits, slot := 0, tick := 0, word := readSlot s.buf 0, dirty := [] }
      else
        { s.seq with phase := .lat, cnt := s.cfg.startLatency, dirty := [] } }

/-- `reject()` (R122): handle and buffer return to the idle owner at once. -/
def rejectTrigger (s : State) : State := { s with result := .triggerError, owner := .idle }

/-- TRIG's effect (R120). -/
def trigEffect (s : State) : State :=
  if s.fault then s
  else if s.owner ≠ .encoding then raiseFault .protocolViolation s
  else if refuses s then rejectTrigger (countRefusalDraw s)
  else acceptTrigger (countRefusalDraw s)

/-- TRIG (R120). -/
def execTrig (s : State) : Host.Outcome State Fault Refusal := .next (trigEffect s)

/-! ### The sequencer's tick -/

/-- The duty of a pulse code word, bits [14:0] (R77). -/
def dutyOf (w : Code) : Nat := (w.extractLsb' 0 15).toNat

/-- A canonical word: marker 1 and a duty within the period (R78). -/
def canonical (w : Code) : Bool := w.getLsbD 15 && decide (dutyOf w ≤ periodTicks)

/-- The level of a canonical word at tick `k` of its period: HIGH for the first DUTY ticks (R125). -/
def pulseLevel (w : Code) (k : Nat) : Level := if k < dutyOf w then .high else .low

/-- `Level(w, k)` (R125): for a non-canonical word the free value `WAVE_OTHER`. -/
def waveLevel (draw : Nat) (w : Code) (k : Nat) : Level :=
  if canonical w then pulseLevel w k else Config.waveOther draw w k

/-- The DMA latches slot `i` into `seq.word` (R124): a dirty slot gives a free value (R128). -/
def latchSlot (i : Nat) (s : State) : State :=
  if i ∈ s.seq.dirty then
    { s with seq := { s.seq with word := Config.latchValue s.draws }, draws := s.draws + 1 }
  else
    { s with seq := { s.seq with word := readSlot s.buf i } }

/-- Set the phase's position. -/
def atSlot (phase : SeqPhase) (slot tick cnt : Nat) (s : State) : State :=
  { s with seq := { s.seq with phase := phase, slot := slot, tick := tick, cnt := cnt } }

/-- A tick in OFF (R124). -/
def tickOff (s : State) : State := emit (if initDone s then .low else s.cfg.linePreInit) s

/-- A tick in LAT (R124). -/
def tickLat (s : State) : State :=
  if s.seq.cnt - 1 = 0 then latchSlot 0 (atSlot .bits 0 0 0 (emit .low s))
  else atSlot .lat s.seq.slot s.seq.tick (s.seq.cnt - 1) (emit .low s)

/-- The level of a tick in BITS (R124, R125); a non-canonical word's level takes a draw. -/
def emitBit (s : State) : State :=
  { emit (waveLevel s.draws s.seq.word s.seq.tick) s with
    draws := if canonical s.seq.word then s.draws else s.draws + 1 }

/-- A tick in BITS moves to the next tick, the next slot, or the reset gap (R124). -/
def advanceBit (s : State) : State :=
  if s.seq.tick + 1 = periodTicks then
    if s.seq.slot + 1 = capacity s.cfg then atSlot .gap (s.seq.slot + 1) 0 resetTicks s
    else latchSlot (s.seq.slot + 1) (atSlot .bits (s.seq.slot + 1) 0 s.seq.cnt s)
  else atSlot .bits s.seq.slot (s.seq.tick + 1) s.seq.cnt s

/-- A tick in BITS (R124). -/
def tickBits (s : State) : State := advanceBit (emitBit s)

/-- The pass is over: the sequencer is off and nothing is dirty (R124). -/
def endPass (s : State) : State := { s with seq := { s.seq with phase := .off, cnt := 0, dirty := [] } }

/-- A tick in GAP (R124). -/
def tickGap (s : State) : State :=
  if s.seq.cnt - 1 = 0 then endPass (emit .low s)
  else atSlot .gap s.seq.slot s.seq.tick (s.seq.cnt - 1) (emit .low s)

/-- `tick_seq()`, the first half of a tick step (R14, R124). -/
def tickSeq (s : State) : State :=
  match s.seq.phase with
  | .off => tickOff s
  | .lat => tickLat s
  | .bits => tickBits s
  | .gap => tickGap s

end Sys2Proof.Machine
end

