-- ==== Sys2Proof/Machine/Waiter.lean ====
section
/-! DEFINITION. The completion waiter: WAITB (R140), WAITS (R141), CANCEL (R143), the timer's tick (R145, R146), and the
whole tick step (R14, R185). -/

namespace Sys2Proof.Machine

/-! ### The two waits -/

/-- WAITING starts: the timer is loaded with the completion delay (R140, R141, R144). -/
def startWait (mode : WaitMode) (s : State) : State :=
  { s with owner := .waiting, wmode := mode, timer := { s.timer with remain := delayTicks s.cfg } }

/-- `host.blocked <- true` (R36, R140). -/
def blockHost (s : State) : State := { s with host := { s.host with blocked := true } }

/-- The calling task is suspended (R141). -/
def suspendTask (s : State) : State := { s with host := { s.host with suspended := some s.host.task } }

/-- WAITB's effect (R140): the host agent has no step until STATE leaves WAITING. -/
def waitbEffect (s : State) : State :=
  if s.fault then s
  else if s.owner ≠ .transmitting then raiseFault .protocolViolation s
  else blockHost (startWait .blocking s)

/-- WAITB (R140). -/
def execWaitb (s : State) : Host.Outcome State Fault Refusal := .next (waitbEffect s)

/-- WAITS's effect (R141): the calling task is suspended; other host work may step (R142). -/
def waitsEffect (s : State) : State :=
  if s.fault then s
  else if s.owner ≠ .transmitting then raiseFault .protocolViolation s
  else suspendTask (startWait .suspending s)

/-- WAITS (R141). -/
def execWaits (s : State) : Host.Outcome State Fault Refusal := .next (waitsEffect s)

/-! ### CANCEL -/

/-- An event is a step of the given task. -/
def Event.ofTask (t : Nat) : Event → Bool
  | .tick => false
  | .powerOn => false
  | .host t' _ => t' == t

/-- The steps left when a task is dropped: it never resumes (R141, R143, log 3). -/
def dropTask (t : Option Nat) (agenda : List Event) : List Event :=
  match t with
  | none => agenda
  | some t => agenda.filter (fun e => !e.ofTask t)

/-- The suspending wait is cancelled (R143): the sequencer runs on. -/
def cancelWait (s : State) : State :=
  { s with
    owner := .idle
    wmode := .blocking
    timer := { s.timer with remain := 0 }
    host := { s.host with suspended := none }
    agenda := dropTask s.host.suspended s.agenda }

/-- CANCEL's effect (R143). -/
def cancelEffect (s : State) : State :=
  if s.fault then s
  else if s.owner ≠ .waiting ∨ s.wmode ≠ .suspending then raiseFault .protocolViolation s
  else cancelWait s

/-- CANCEL (R143). -/
def execCancel (s : State) : Host.Outcome State Fault Refusal := .next (cancelEffect s)

/-! ### The timer's tick -/

/-- The task whose wait is running: the blocked host's, or the suspended one. -/
def waitingTask (h : HostAgent) : Option Nat := if h.blocked then some h.task else h.suspended

/-- The tasks whose wait lasted its full delay, with the one whose wait ends now (R147). -/
def noteElapsed (h : HostAgent) : List Nat :=
  match waitingTask h with
  | none => h.elapsed
  | some t => insertSlot t h.elapsed

/-- The timer expires (R145, R148): handle and buffer return to the idle owner, and the host or the task may step. -/
def expire (s : State) : State :=
  { s with
    owner := .idle
    wmode := .blocking
    timer := { s.timer with remain := 0 }
    host := { s.host with blocked := false, suspended := none, elapsed := noteElapsed s.host } }

/-- The timer fails (R146): SUSPENSION_FAILURE, and STATE stays WAITING for ever. -/
def failTimer (s : State) : State :=
  { recordFault .suspensionFailure s with timer := { s.timer with failed := true } }

/-- The timer counts one tick down (R145). -/
def countDown (s : State) : State :=
  if s.timer.remain - 1 = 0 then expire s
  else { s with timer := { s.timer with remain := s.timer.remain - 1 } }

/-- The draw `timer_fail` is used up. -/
def countTimerDraw (s : State) : State :=
  { s with draws := if s.cfg.timerMayFail then s.draws + 1 else s.draws }

/-- `tick_timer()`, the second half of a tick step (R14, R145). -/
def tickTimer (s : State) : State :=
  if s.owner = .waiting ∧ s.timer.failed = false then
    if s.cfg.timerMayFail && Config.timerFail s.draws then failTimer (countTimerDraw s)
    else countDown (countTimerDraw s)
  else s

/-- A tick step: the sequencer first, then the completion timer (R14, R185). -/
def tick (s : State) : State := tickTimer (tickSeq s)

/-- `k` tick steps with no host step between them. -/
def ticks : Nat → State → State
  | 0, s => s
  | k + 1, s => ticks k (tick s)

end Sys2Proof.Machine
end

