-- ==== Sys2Proof/Machine/Dispatch.lean ====
section
/-! DEFINITION. One arm per command of the opcode map (R74). -/

namespace Sys2Proof.Machine

def exec (i : Instr) (s : State) : Host.Outcome State Fault Refusal :=
  match i with
  | .init => Sys2Proof.Machine.execInit s
  | .beginFrame => Sys2Proof.Machine.execBegin s
  | .push r g b => Sys2Proof.Machine.execPush r g b s
  | .trig => Sys2Proof.Machine.execTrig s
  | .waitb => Sys2Proof.Machine.execWaitb s
  | .waits => Sys2Proof.Machine.execWaits s
  | .cancel => Sys2Proof.Machine.execCancel s

end Sys2Proof.Machine
end

