-- ==== Sys2Proof/Machine/Bus.lean ====
section
/-! DEFINITION. The host's bus accesses: LD32, LD16, ST32, ST16 (R161 to R164), with the priority of R184. -/

namespace Sys2Proof.Machine

/-- The access check fails (R166): ACCESS_FAULT, or nothing at all while FAULT = 1 (R182). -/
def refuseStore (s : State) : State := if s.fault then s else raiseFault .accessFault s

/-- The access check of a load fails: ACCESS_FAULT, or a draw while FAULT = 1 (R163, R182). -/
def refuseLoad (n : Nat) (s : State) : State := if s.fault then replyDraw n s else raiseFault .accessFault s

/-- LD32 of a register (R163): legal in every STATE, whatever FAULT holds (R154). -/
def loadRegister (off : Nat) (s : State) : State := setReply (.value ((readRegister off s).setWidth 64)) s

/-- LD16 of a buffer slot (R161): in IDLE; a draw while FAULT = 1 (R153, R182). -/
def loadSlot (i : Nat) (s : State) : State :=
  if s.fault then replyDraw 2 s
  else if s.owner ≠ .idle then raiseFault .ownershipViolation s
  else setReply (.value ((readSlot s.buf i).setWidth 64)) s

/-- `MemRead(off, n)` (R161, R163). -/
def memRead (off n : Nat) (s : State) : State :=
  if accessOk s.cfg .load off n then
    if off < 0x100 then loadRegister off s else loadSlot (slotOfOffset off) s
  else refuseLoad n s

/-- ST16 of a buffer slot (R162): in IDLE; ignored while FAULT = 1 (R153, R182). -/
def storeBuf (i : Nat) (w : Code) (s : State) : State :=
  if s.fault then s
  else if s.owner ≠ .idle then raiseFault .ownershipViolation s
  else storeSlot i w s

/-- ST32 CMD (R164): the word is decoded and executed in this step; ignored while FAULT = 1 (R182). -/
def deliver (w : Word) (s : State) : Host.Outcome State Fault Refusal :=
  if s.fault then .next s
  else
    match decode w with
    | .ok i => exec i s
    | .error _ => .next (raiseFault .illegalCommand s)

/-- `MemWrite(off, n, v)` (R162, R164). -/
def memWrite (off n : Nat) (v : BusData) (s : State) : Host.Outcome State Fault Refusal :=
  if accessOk s.cfg .store off n then
    if off < 0x100 then deliver (v.setWidth 32) s
    else .next (storeBuf (slotOfOffset off) (v.setWidth 16) s)
  else .next (refuseStore s)

/-- A load from the host's address space: an address outside the window does not belong to the block (R165). -/
def busLoad (a : HostAddr) (n : Nat) (s : State) : State :=
  match a.resolve s.cfg with
  | some off => memRead off n s
  | none => setReply .elsewhere s

/-- A store to the host's address space. -/
def busStore (a : HostAddr) (n : Nat) (v : BusData) (s : State) : Host.Outcome State Fault Refusal :=
  match a.resolve s.cfg with
  | some off => memWrite off n v s
  | none => .next (setReply .elsewhere s)

end Sys2Proof.Machine
end

