-- ==== Sys2Proof/Machine/Agenda.lean ====
section
/-! DEFINITION. The host agent and the clock: which event steps next (R14, R36, R141, R142, R214), a host step (R167), and
the pseudo-instructions WRITE.B, WRITE.S and FILL (R84 to R86). -/

namespace Sys2Proof.Machine

/-! ### The pseudo-instructions -/

/-- `ST32 CMD, i` (R82, R83). -/
def storeCommand (i : Instr) : HostOp := .store (.window 0#17) 4 ((encode i).setWidth 64)

/-- The wait that ends a write (R84, R85). -/
def waitCommand : WaitMode → Instr
  | .blocking => .waitb
  | .suspending => .waits

/-- WRITE.B (blocking) and WRITE.S (suspending): the host steps up to the branch on RESULT (R84, R85). -/
def writeProgram (mode : WaitMode) (colours : List Color) : List HostOp :=
  storeCommand .beginFrame
    :: colours.map (fun c => storeCommand (.push c.r c.g c.b))
    ++ [storeCommand .trig, .checkResult mode]

/-- FILL v: a store into every slot, at BLOCK_BASE + 0x100 + 2i (R86, R162). DESIGN CHOICE (log 25): a slot past the 17-bit
window (i ≥ 65408) has an address that belongs to no block (R165), and its store goes elsewhere. -/
def fillProgram (p : Config.Params) (v : Code) : List HostOp :=
  (List.range (capacity p)).map
    (fun i => .store (.absolute (p.blockBase + offsetOfSlot i)) 2 (v.setWidth 64))

/-- A program of one task, as events. -/
def asTask (t : Nat) (ops : List HostOp) : List Event := ops.map (.host t)

/-! ### A host step -/

/-- The other tasks of a list than `t`. -/
def otherTasks (t : Nat) (l : List Nat) : List Nat := l.filter (fun x => x ≠ t)

/-- A write returns `r` to its caller (R170). -/
def recordResult (r : WriteResult) (s : State) : State :=
  { s with
    host := { s.host with
      results := (s.host.task, r) :: s.host.results
      elapsed := otherTasks s.host.task s.host.elapsed } }

/-- A write ends. It returns Ok only if its wait has lasted the full delay (R147, R170); a write whose wait never began
(FAULT = 1) or was cut short by a power-on reset returns nothing (log 22). -/
def finishWrite (r : WriteResult) (s : State) : State :=
  match r with
  | .triggerError => recordResult .triggerError s
  | .ok => if s.host.task ∈ s.host.elapsed then recordResult .ok s else s

/-- A write is about to wait: no earlier wait of its task counts for it (R147). -/
def forgetElapsed (s : State) : State :=
  { s with host := { s.host with elapsed := otherTasks s.host.task s.host.elapsed } }

/-- What follows WRITE's load of STATUS (R84, R170): on TRIGGER_ERROR the write returns the error and does not wait;
otherwise the wait command comes, and then the write's end, once the host, or the task, may step again. -/
def branchOnResult (mode : WaitMode) (v : BusData) (s : State) : State :=
  if statusResult v = 2#2 then
    finishWrite .triggerError s
  else
    setAgenda (asTask s.host.task [storeCommand (waitCommand mode), .finishWrite .ok] ++ s.agenda) (forgetElapsed s)

/-- WRITE's `s <- LD32 STATUS` and its branch (R84). -/
def checkResult (mode : WaitMode) (s : State) : State :=
  branchOnResult mode ((statusWord s).setWidth 64) (memRead 0x004 4 s)

/-- One host step (R14, R161 to R164, R84). -/
def runHostOp (op : HostOp) (s : State) : Host.Outcome State Fault Refusal :=
  match op with
  | .load a n => .next (busLoad a n s)
  | .store a n v => busStore a n v s
  | .checkResult mode => .next (checkResult mode s)
  | .finishWrite r => .next (finishWrite r s)

/-! ### Which event steps next -/

/-- An event may step: a tick always; a host step unless a WAITB blocks the host (R36, R140) or a WAITS suspends the
step's task (R141, R142); power-on reset only while the sequencer is OFF (R168, R200). -/
def enabled (s : State) : Event → Bool
  | .tick => true
  | .powerOn => !busy s
  | .host t _ => !s.host.blocked && !(s.host.suspended == some t)

/-- The first event that may step, and the events left; an event that may not step yet keeps its place (log 2). -/
def nextEvent (s : State) : List Event → Option (Event × List Event)
  | [] => none
  | e :: rest =>
    if enabled s e then some (e, rest)
    else
      match nextEvent s rest with
      | none => none
      | some (e', rest') => some (e', e :: rest')

/-- The host takes a turn: the task's step leaves the agenda and starts with no reply. -/
def hostTurn (t : Nat) (rest : List Event) (s : State) : State :=
  { s with agenda := rest, host := { s.host with task := t, reply := .none } }

/-- One step of the machine: the next enabled event; with none enabled, the clock ticks (R14, R214). -/
def nextStep (s : State) : Host.Outcome State Fault Refusal :=
  match nextEvent s s.agenda with
  | none => .next (tick s)
  | some (.tick, rest) => .next (tick (setAgenda rest s))
  | some (.powerOn, rest) => .next (powerOnReset rest s)
  | some (.host t op, rest) => runHostOp op (hostTurn t rest s)

/-! ### A command placed from outside -/

/-- A task that no wait suspends. -/
def freeTask (h : HostAgent) : Nat :=
  match h.suspended with
  | none => h.task
  | some t => t + 1

/-- The word of a table instruction as the host stores it: bits above `nbits` are 0, and beyond 32 there are none. -/
def tableWord (nbits w : Nat) : Word := BitVec.ofNat 32 (w % 2 ^ nbits)

/-- The next step is a free task's store of `w` to CMD, and the host is not blocked (log 20). -/
def placeCommand (w : Word) (s : State) : State :=
  { s with
    agenda := .host (freeTask s.host) (.store (.window 0#17) 4 (w.setWidth 64)) :: s.agenda
    host := { s.host with blocked := false } }

end Sys2Proof.Machine
end

