-- ==== Sys2Proof/Machine/Step.lean ====
section
/-! DEFINITION. One step of the machine (R14), and the placing of one command where the next step takes it. -/

namespace Sys2Proof.Machine

/-- One step: the next enabled event of the host, or a tick of the clock (R14). -/
def step (s : State) : Host.Outcome State Fault Refusal := nextStep s

/-- The state whose very next step is the store to CMD of the table word `w` (log 20). -/
def State.withFetchWord (s : State) (nbits w : Nat) : State := placeCommand (tableWord nbits w) s

end Sys2Proof.Machine
end

