-- ==== Sys2Proof/Safety.lean ====
section
/-! DEFINITION. What claims speak of: a loaded machine and its runs, the end of a run (R169), the invariants (R33, R37,
R41), the ownership table (R150) and its edges (R151), and the LOW run that a new pass follows (R208). -/

namespace Sys2Proof.Safety

open Sys2Proof.Machine

/-! ### Runs -/

/-- Power-on reset with the launch's parameters and the host's program (R42, R167, log 1). -/
def loaded (cfg : Config.Params) (agenda : List Event) : State :=
  { State.resetWith cfg with agenda := agenda }

/-- The states that some number of steps reaches from a loaded machine. -/
def Reachable (s : State) : Prop := ∃ cfg agenda k, Sys2Proof.core.run k (loaded cfg agenda) = .next s

/-- The next step is a power-on reset (R200). -/
def powersOn (s : State) : Bool :=
  match nextEvent s s.agenda with
  | none => false
  | some (.tick, _) => false
  | some (.powerOn, _) => true
  | some (.host _ _, _) => false

/-! ### The end of a run (R169) -/

/-- The host's program has a step left. -/
def hasHostStep (s : State) : Bool :=
  s.agenda.any (fun e => match e with | .tick => false | .powerOn => false | .host _ _ => true)

/-- A finished run (R169). -/
def finished (s : State) : Bool :=
  !hasHostStep s && !s.fault && decide (s.owner = .idle ∨ s.owner = .uninit)
    && decide (s.seq.phase = .off) && decide (s.timer.remain = 0)

/-- A pending run: the host has stopped, the sequencer has not (R169). DESIGN CHOICE (log 26): R169's "(after CANCEL)" is read
as the usual cause and not as a condition, so a program that stops in a wait or after TRIG is pending too; and R169 does not
say that pending and faulted exclude each other, so a state may be both. -/
def pending (s : State) : Bool := !hasHostStep s && decide (s.seq.phase ≠ .off)

/-- A faulted state (R169). -/
def faulted (s : State) : Bool := s.fault

/-- A hung state: the host is blocked and the timer has failed (R146, R169). -/
def hung (s : State) : Bool := s.host.blocked && s.timer.failed

/-! ### Invariants -/

/-- The invariants of R41, in its order. -/
structure SpecInv (s : State) : Prop where
  cursor_le : s.cursor ≤ s.cfg.ledCount
  waiting_iff : s.owner = .waiting ↔ 0 < s.timer.remain
  in_flight_ok : s.owner = .transmitting ∨ s.owner = .waiting → s.result = .ok
  uninit_off : s.owner = .uninit → s.seq.phase = .off
  suspending_waiting : s.wmode = .suspending → s.owner = .waiting
  fault_iff : s.fault = false ↔ s.fcode = 0#4

/-- The counter ranges of R33, and what each phase of the sequencer says of them (R34, R124). -/
structure SeqInv (s : State) : Prop where
  slot_le : s.seq.slot ≤ capacity s.cfg
  tick_lt : s.seq.tick < periodTicks
  lat_cnt : s.seq.phase = .lat → 1 ≤ s.seq.cnt ∧ s.seq.cnt ≤ s.cfg.startLatency
  bits_slot : s.seq.phase = .bits → s.seq.slot < capacity s.cfg
  gap_cnt : s.seq.phase = .gap → 1 ≤ s.seq.cnt ∧ s.seq.cnt ≤ resetTicks ∧ s.seq.slot = capacity s.cfg
  off_slot : s.seq.phase = .off → s.seq.slot = 0 ∨ s.seq.slot = capacity s.cfg
  lat_slot : s.seq.phase = .lat → s.seq.slot = 0 ∨ s.seq.slot = capacity s.cfg
  off_clean : s.seq.phase = .off → s.seq.dirty = []
  dirty_rise : slotsRise s.seq.dirty = true
  dirty_lt : ∀ i ∈ s.seq.dirty, i < capacity s.cfg

/-- The buffer's memory: canonical, and inside the slot space (R32, R39). -/
structure BufInv (s : State) : Prop where
  wf : Mem.wf s.buf.cells = true
  in_range : ∀ c ∈ s.buf.cells, c.1 < 2 * capacity s.cfg

/-- Construction and the waits: INIT's binding and CONFIG_OK (R160), the blocked host (R36), the suspended task (R141). -/
structure HostInv (s : State) : Prop where
  built : s.owner ≠ .uninit →
    s.binding = some { pin := s.cfg.outputPin, drive := s.cfg.drive } ∧ configOk s.cfg = true
  unbuilt : s.owner = .uninit → s.binding = none ∧ s.seq.slot = 0
  blocked_iff : s.host.blocked = true ↔ s.owner = .waiting ∧ s.wmode = .blocking
  suspended_iff : s.host.suspended.isSome = true ↔ s.wmode = .suspending
  remain_le : s.timer.remain ≤ delayTicks s.cfg

/-- The model's invariant. -/
structure Inv (s : State) : Prop where
  spec : SpecInv s
  sequencer : SeqInv s
  buffer : BufInv s
  hostSide : HostInv s

/-! ### The ownership table (R150) and the only cycle (R151) -/

/-- A command is legal in the current STATE, WMODE counted for CANCEL (R150). -/
def legal (i : Instr) (s : State) : Bool :=
  match i with
  | .init => decide (s.owner = .uninit)
  | .beginFrame => decide (s.owner = .idle)
  | .push _ _ _ => decide (s.owner = .encoding)
  | .trig => decide (s.owner = .encoding)
  | .waitb => decide (s.owner = .transmitting)
  | .waits => decide (s.owner = .transmitting)
  | .cancel => decide (s.owner = .waiting) && decide (s.wmode = .suspending)

/-- The moves of STATE that R151 allows, staying included. -/
def ownerEdge : Owner → Owner → Bool
  | .uninit, b => decide (b = .uninit ∨ b = .idle)
  | .idle, b => decide (b = .idle ∨ b = .encoding)
  | .encoding, b => decide (b = .encoding ∨ b = .transmitting ∨ b = .idle)
  | .transmitting, b => decide (b = .transmitting ∨ b = .waiting)
  | .waiting, b => decide (b = .waiting ∨ b = .idle)

/-! ### The frame on the line (R129) and the gap before it (R208) -/

/-- One bit period of a canonical word, first tick first (R125, R129). -/
def slotWave (w : Code) : List Level :=
  List.replicate (dutyOf w) .high ++ List.replicate (periodTicks - dutyOf w) .low

/-- The periods of slots `i`, …, `i + n - 1` (R129). -/
def slotsWave (m : FrameBuffer) : Nat → Nat → List Level
  | _, 0 => []
  | i, n + 1 => slotWave (readSlot m i) ++ slotsWave m (i + 1) n

/-- `Wave(buf)`: the trace of a pass, first tick first (R129). -/
def passWave (cfg : Config.Params) (m : FrameBuffer) : List Level :=
  List.replicate cfg.startLatency .low ++ slotsWave m 0 (capacity cfg) ++ List.replicate resetTicks .low

/-- The length of a pass in ticks (R127). -/
def passTicks (cfg : Config.Params) : Nat := cfg.startLatency + capacity cfg * periodTicks + resetTicks

/-- How many of the last ticks were LOW without a break. -/
def lowRun (s : State) : Nat := (s.trace.takeWhile (fun l => l == .low)).length

/-- After the first pass: the gap's LOW ticks so far are all in the last run of LOW ticks (R124, R208). -/
structure GapInv (s : State) : Prop where
  in_gap : s.seq.phase = .gap → resetTicks - s.seq.cnt ≤ lowRun s
  off_after : s.seq.phase = .off → s.seq.slot ≠ 0 → resetTicks ≤ lowRun s
  lat_after : s.seq.phase = .lat → s.seq.slot ≠ 0 → resetTicks + (s.cfg.startLatency - s.seq.cnt) ≤ lowRun s

/-! ### Encoding a list of colours (R113 to R115) -/

/-- The commands PUSH c0, …, PUSH c(L−1), one after another. -/
def pushAll : List Color → State → State
  | [], s => s
  | c :: cs, s => pushAll cs (pushEffect c.r c.g c.b s)

end Sys2Proof.Safety
end

