-- ==== Sys2Proof/Certificates/Slice0/Obligations.lean ====
section
/-! DEFINITION. The statements for the provers, in the order of spec/'s files. Each docstring names the rules it formalises. -/

open Sys2Proof Sys2Proof.Machine Sys2Proof.Safety

/-! ### Encodings (30_encoding.md) -/

/-- R71, R72, R73, R74: decoding the word of a well-formed command gives the command back, for all seven commands and every
colour; and a word that decodes is the word of its command, so no bit of it is dropped. -/
def Obligations.DecodeAndEncodeAgree : Prop :=
  (∀ i : Instr, i.wellFormed = true → decode (encode i) = .ok i)
    ∧ (∀ (w : Word) (i : Instr), decode w = .ok i → encode i = w)

/-- R74: a word decodes exactly if it selects a row of the opcode map, then to a command of that row; rows do not overlap. -/
def Obligations.DecodeFollowsOpcodeMap : Prop :=
  (∀ w : Word, (∃ i, decode w = .ok i) ↔ ∃ row ∈ opcodeMap, rowSelects row w = true)
    ∧ (∀ (w : Word) (i : Instr), decode w = .ok i → rowOf i ∈ opcodeMap ∧ rowSelects (rowOf i) w = true)
    ∧ (∀ w : Word, ∀ p ∈ opcodeMap, ∀ q ∈ opcodeMap,
        rowSelects p w = true → rowSelects q w = true → p = q)

/-- R75 (its list of illegal words): exactly the reserved opcodes 0x00 and 0x08 to 0xFF, and the words of any other command
than PUSH with a bit of [23:0] set, have no command. -/
def Obligations.IllegalWordsHaveNoCommand : Prop :=
  ∀ w : Word, (∃ e, decode w = .error e) ↔
    ((opcodeOf w).toNat = 0 ∨ 8 ≤ (opcodeOf w).toNat ∨ (opcodeOf w ≠ 0x03#8 ∧ operandOf w ≠ 0#24))

/-- R82 and 95_test_vectors.md V2.2: the words of the spec's syntax table and of three of its PUSH examples. -/
def Obligations.DecodeOfWrittenWords : Prop :=
  decode 0x01000000#32 = .ok .init ∧ decode 0x02000000#32 = .ok .beginFrame
    ∧ decode 0x04000000#32 = .ok .trig ∧ decode 0x05000000#32 = .ok .waitb
    ∧ decode 0x06000000#32 = .ok .waits ∧ decode 0x07000000#32 = .ok .cancel
    ∧ decode 0x03FF0000#32 = .ok (.push 255 0 0) ∧ decode 0x030000FF#32 = .ok (.push 0 0 255)
    ∧ decode 0x03123456#32 = .ok (.push 0x12 0x34 0x56)

/-- R80: the first eight slots of a chunk carry G[7] to G[0], the next eight R[7] to R[0], the last eight B[7] to B[0]. -/
def Obligations.ChunkSlotsCarryGreenRedBlue : Prop :=
  ∀ (r g b : Byte) (k : Nat), k < 8 →
    chunkCode r g b k = codeOfBit (g.getLsbD (7 - k))
      ∧ chunkCode r g b (8 + k) = codeOfBit (r.getLsbD (7 - k))
      ∧ chunkCode r g b (16 + k) = codeOfBit (b.getLsbD (7 - k))

/-! ### Timing constants (40_timing_constants.md) -/

/-- R100, R101, R102, R103: the conversion to ticks, the tick constants, the two canonical codes, which differ only in DUTY;
no rounding tie arises, so every rule for ties (any nearest integer) gives the same ticks. -/
def Obligations.TimingConstants : Prop :=
  (∀ ns : Nat, toTicks ns = (ns * 16 + 500) / 1000)
    ∧ zeroDuty = 6 ∧ oneDuty = 13 ∧ periodTicks = 20 ∧ resetTicks = 4320
    ∧ zeroCode = 0x8006#16 ∧ oneCode = 0x800D#16
    ∧ canonical zeroCode = true ∧ canonical oneCode = true
    ∧ zeroCode &&& 0x8000#16 = oneCode &&& 0x8000#16
    ∧ (∀ ns : Nat, 16 * ns % 1000 ≠ 500)
    ∧ (∀ ns q : Nat, 16 * ns ≤ 1000 * q + 500 → 1000 * q ≤ 16 * ns + 500 → toTicks ns = q)

/-- R104, R105: the completion delay is 30·N + 270 µs, which is 480·N + 4320 ticks, the pass length without latency. -/
def Obligations.DelayEqualsFrameTime : Prop :=
  ∀ p : Config.Params, delayUs p = 30 * p.ledCount + 270
    ∧ delayTicks p = 480 * p.ledCount + 4320
    ∧ delayTicks p = capacity p * periodTicks + resetTicks

/-! ### Steps (00_scope.md, 10_state.md) -/

/-- R23, R164: the host step that stores a decoding word to CMD is exec of its command, at the state in which the host has
taken its turn. -/
def Obligations.StepRunsDeliveredCommand : Prop :=
  ∀ (s : State) (task : Nat) (a : HostAddr) (v : BusData) (rest : List Event) (i : Instr),
    nextEvent s s.agenda = some (.host task (.store a 4 v), rest) →
    a.resolve s.cfg = some 0 → decode (v.setWidth 32) = .ok i →
    step s = exec i (hostTurn task rest s)

/-- R75: with FAULT = 0, a store to CMD of a word with a reserved opcode, or of a format-N word with a bit of [23:0] set,
raises ILLEGAL_COMMAND (FCODE 3) and has no other effect. -/
def Obligations.StepRaisesIllegalCommand : Prop :=
  ∀ (s : State) (task : Nat) (a : HostAddr) (v : BusData) (rest : List Event),
    nextEvent s s.agenda = some (.host task (.store a 4 v), rest) → a.resolve s.cfg = some 0 →
    ((opcodeOf (v.setWidth 32)).toNat = 0 ∨ 8 ≤ (opcodeOf (v.setWidth 32)).toNat
      ∨ (opcodeOf (v.setWidth 32) ≠ 0x03#8 ∧ operandOf (v.setWidth 32) ≠ 0#24)) →
    s.fault = false →
    step s = .next { s with
      agenda := rest, fault := true, fcode := 3#4
      host := { s.host with task := task, reply := .faulted .illegalCommand } }

/-- The model's way to place one command (log 20): the very next step runs it. -/
def Obligations.PlacedWordRunsNext : Prop :=
  ∀ (s : State) (nbits w : Nat) (i : Instr), decodeTableWord nbits w = some i →
    step (s.withFetchWord nbits w) =
      exec i (hostTurn (freeTask s.host) s.agenda { s with host := { s.host with blocked := false } })

/-- R181, R182, R214: no state stops the machine; every step answers a next state. -/
def Obligations.EveryStepAnswersNext : Prop :=
  ∀ s : State, ∃ t, step s = .next t

/-- R14, R214 and log 2: a listed tick, or no enabled event, makes the step a tick. -/
def Obligations.ClockTicksOtherwise : Prop :=
  ∀ (s : State) (rest : List Event),
    (nextEvent s s.agenda = none → step s = .next (tick s))
      ∧ (nextEvent s s.agenda = some (.tick, rest) → step s = .next (tick (setAgenda rest s)))

/-- R42, R200 and log 17: a power-on reset on the agenda comes only while the sequencer is OFF, and puts every piece of the
block's state to its reset value; the buffer's contents are unspecified anew. The parameters, the program and the records of
the run stay. That a reset is an event of the agenda, and what stays, is the model's choice (log 17); seq.word, which R42 leaves
unspecified, is left free here. -/
def Obligations.PowerOnResetsTheBlock : Prop :=
  ∀ (s : State) (rest : List Event), nextEvent s s.agenda = some (.powerOn, rest) →
    s.seq.phase = .off
      ∧ ∃ t, step s = .next t
        ∧ t = { State.resetWith s.cfg with
            buf := t.buf, seq := { (State.resetWith s.cfg).seq with word := t.seq.word }
            trace := s.trace, agenda := rest, draws := s.draws
            host := { s.host with blocked := false, suspended := none, reply := .none } }
        ∧ t.buf.powerOn = s.buf.powerOn + 1
        ∧ ∀ i, readSlot t.buf i = Config.initBuffer t.buf.powerOn i

/-- R36: while host.blocked is true the host agent has no step, whatever its agenda: the step is a tick (power-on reset
apart), and every other event stays on the agenda. -/
def Obligations.BlockedHostHasNoStep : Prop :=
  ∀ s t : State, s.host.blocked = true → powersOn s = false → step s = .next t →
    ∃ rest, t = tick (setAgenda rest s)
      ∧ rest.filter (fun e => e ≠ Event.tick) = s.agenda.filter (fun e => e ≠ Event.tick)

/-- R141: the calling task of a WAITS takes no step while it is suspended. -/
def Obligations.SuspendedTaskHasNoStep : Prop :=
  ∀ (s : State) (task : Nat) (op : HostOp) (rest : List Event), s.host.suspended = some task →
    nextEvent s s.agenda ≠ some (.host task op, rest)

/-- R142: unless a WAITB blocks the host, the step of any task but the suspended one may come next, past the steps of the
suspended task. That the first step that may come does come next, and that those passed keep their places, is the model's choice
(log 2). -/
def Obligations.OtherTasksMayStep : Prop :=
  ∀ (s : State) (task : Nat) (op : HostOp) (waiting rest : List Event),
    s.host.blocked = false → s.host.suspended ≠ some task →
    (∀ e ∈ waiting, ∃ t o, e = .host t o ∧ s.host.suspended = some t) →
    s.agenda = waiting ++ .host task op :: rest →
    nextEvent s s.agenda = some (.host task op, waiting ++ rest)

/-- R214: the clock is fair. The bound, three steps for each event of the agenda and one more, is the model's: a finite agenda
(log 1), the first event that may step (log 2), and WRITE's branch, which adds two events (log 22). -/
def Obligations.ClockIsFair : Prop :=
  ∀ s : State, ∃ k t, k ≤ 3 * s.agenda.length + 1 ∧ Sys2Proof.core.run k s = .next t
    ∧ t.trace.length = s.trace.length + 1

/-! ### The commands (41, 42, 43, 45) -/

/-- R160: with CONFIG_OK, INIT of an unconstructed block binds the pin with the drive strength, sets the line LOW and STATE
IDLE, and changes nothing else. -/
def Obligations.InitConstructsTheBlock : Prop :=
  ∀ s : State, s.fault = false → s.owner = .uninit → configOk s.cfg = true →
    exec .init s = .next { s with
      binding := some { pin := s.cfg.outputPin, drive := s.cfg.drive }, line := .low, owner := .idle }

/-- R107, R160: with the source's timing inputs CONFIG_OK is a matter of N, MAX_SLOTS, MAX_GAP_TICKS and PIN_VALID. -/
def Obligations.ConfigOkClauses : Prop :=
  ∀ p : Config.Params, configOk p = true ↔
    (1 ≤ p.ledCount ∧ 24 * p.ledCount ≤ p.maxSlots ∧ 4320 ≤ p.maxGapTicks ∧ p.pinValid = true)

/-- R111: BEGIN in IDLE sets ENCODING, CURSOR 0 and RESULT NONE, and changes nothing else, the buffer included. -/
def Obligations.BeginStartsFrame : Prop :=
  ∀ s : State, s.fault = false → s.owner = .idle →
    exec .beginFrame s = .next { s with owner := .encoding, cursor := 0, result := .none }

/-- R112: PUSH in ENCODING with CURSOR ≠ N writes the 24 slots of the chunk at the cursor, green-red-blue and most significant
bit first, marks those of them that the running pass has not latched, adds 1 to CURSOR, and changes nothing else: every
byte outside the chunk reads as before. -/
def Obligations.PushEncodesOneColour : Prop :=
  ∀ (r g b : Byte) (s : State), s.fault = false → s.owner = .encoding → s.cursor ≠ s.cfg.ledCount →
    ∃ t, exec (.push r g b) s = .next t
      ∧ (∀ k, k < 24 → readSlot t.buf (24 * s.cursor + k) =
          if (g ++ r ++ b).getLsbD (23 - k) then 0x800D#16 else 0x8006#16)
      ∧ (∀ a, a < 48 * s.cursor ∨ 48 * s.cursor + 48 ≤ a → readByte t.buf a = readByte s.buf a)
      ∧ t.buf.powerOn = s.buf.powerOn
      ∧ (∀ i, i ∈ t.seq.dirty ↔ i ∈ s.seq.dirty ∨
          (24 * s.cursor ≤ i ∧ i < 24 * s.cursor + 24 ∧ unlatched s.seq i = true))
      ∧ t = { s with
          cursor := s.cursor + 1, buf := t.buf, seq := { s.seq with dirty := t.seq.dirty } }

/-- R120, R121: TRIG in ENCODING, with the sequencer off and no refusal, sets RESULT OK and STATE TRANSMITTING, empties the
dirty set and starts the pass: at slot 0 with buf[0] latched if there is no start latency, else in LAT. It changes nothing
else but the count of draws. -/
def Obligations.TrigStartsThePass : Prop :=
  ∀ s : State, s.fault = false → s.owner = .encoding → refuses s = false →
    exec .trig s = .next { s with
      result := .ok
      owner := .transmitting
      draws := if s.cfg.trigMayRefuse then s.draws + 1 else s.draws
      seq :=
        if s.cfg.startLatency = 0 then
          { s.seq with phase := .bits, slot := 0, tick := 0, word := readSlot s.buf 0, dirty := [] }
        else { s.seq with phase := .lat, cnt := s.cfg.startLatency, dirty := [] } }

/-- R120, R122: TRIG in ENCODING while the sequencer is busy, or on a refusal draw of an idle one that may refuse, sets RESULT
TRIGGER_ERROR and STATE IDLE; the buffer, CURSOR, the sequencer, the line and all else but the count of draws are
unchanged. A busy sequencer takes no draw. -/
def Obligations.TrigIsRejected : Prop :=
  ∀ s : State, s.fault = false → s.owner = .encoding →
    (s.seq.phase ≠ .off → exec .trig s = .next { s with result := .triggerError, owner := .idle })
    ∧ (s.seq.phase = .off → s.cfg.trigMayRefuse = true →
      ∃ t, exec .trig s = .next t ∧ t.draws = s.draws + 1
        ∧ (Config.trigRefuse s.draws = true →
          t = { s with result := .triggerError, owner := .idle, draws := s.draws + 1 })
        ∧ (Config.trigRefuse s.draws = false → t.result = .ok ∧ t.owner = .transmitting))

/-- R140: WAITB in TRANSMITTING sets WAITING and WMODE 0, loads the timer with 480·N + 4320 ticks and blocks the host; nothing
else changes. -/
def Obligations.WaitbBlocksTheHost : Prop :=
  ∀ s : State, s.fault = false → s.owner = .transmitting →
    exec .waitb s = .next { s with
      owner := .waiting
      wmode := .blocking
      timer := { s.timer with remain := 480 * s.cfg.ledCount + 4320 }
      host := { s.host with blocked := true } }

/-- R141: WAITS in TRANSMITTING sets WAITING and WMODE 1, loads the timer with the same delay and suspends the calling task;
nothing else changes, host.blocked included. -/
def Obligations.WaitsSuspendsTheTask : Prop :=
  ∀ s : State, s.fault = false → s.owner = .transmitting →
    exec .waits s = .next { s with
      owner := .waiting
      wmode := .suspending
      timer := { s.timer with remain := 480 * s.cfg.ledCount + 4320 }
      host := { s.host with suspended := some s.host.task } }

/-- R143: CANCEL of a suspending wait sets IDLE and WMODE 0, clears the timer and drops the suspended task, whose steps leave
the agenda while all others stay; the sequencer, RESULT and all else are unchanged. -/
def Obligations.CancelEndsSuspendingWait : Prop :=
  ∀ (s : State) (task : Nat), s.fault = false → s.owner = .waiting → s.wmode = .suspending →
    s.host.suspended = some task →
    ∃ rest, exec .cancel s = .next { s with
        owner := .idle
        wmode := .blocking
        timer := { s.timer with remain := 0 }
        host := { s.host with suspended := none }
        agenda := rest }
      ∧ (∀ op, Event.host task op ∉ rest)
      ∧ rest = s.agenda.filter (fun e => !e.ofTask task)

/-- R112, R160, R184: the commands' own checks. PUSH with CURSOR = N raises CAPACITY_OVERFLOW, INIT without CONFIG_OK raises
CONFIG_ERROR; the fault and its mark are the only effect. -/
def Obligations.OwnChecksRaise : Prop :=
  ∀ (s : State) (r g b : Byte), s.fault = false →
    (s.owner = .encoding → s.cursor = s.cfg.ledCount →
      exec (.push r g b) s = .next { s with
        fault := true, fcode := 7#4, host := { s.host with reply := .faulted .capacityOverflow } })
    ∧ (s.owner = .uninit → configOk s.cfg = false →
      exec .init s = .next { s with
        fault := true, fcode := 1#4, host := { s.host with reply := .faulted .configError } })

/-- R150: a command that is not legal in the current STATE raises PROTOCOL_VIOLATION, with STATE and everything else but the
fault and its mark unchanged. -/
def Obligations.IllegalStateRaises : Prop :=
  ∀ (i : Instr) (s : State), s.fault = false → legal i s = false →
    exec i s = .next { s with
      fault := true, fcode := 4#4, host := { s.host with reply := .faulted .protocolViolation } }

/-! ### Whole-machine rules -/

/-- R151: STATE moves only along UNINIT → IDLE → ENCODING → (TRANSMITTING → WAITING →) IDLE, or stays; power-on reset apart. -/
def Obligations.OwnershipMovesAlongTheCycle : Prop :=
  ∀ s t : State, powersOn s = false → step s = .next t → ownerEdge s.owner t.owner = true

/-- R28: once FAULT = 1, no step but reset changes FAULT or FCODE. -/
def Obligations.FirstFaultSticks : Prop :=
  ∀ s t : State, step s = .next t → s.fault = true →
    (powersOn s = false → t.fault = true ∧ t.fcode = s.fcode)
      ∧ (powersOn s = true → t.fault = false ∧ t.fcode = 0#4)

/-- R27: RESULT changes only in a step that delivers BEGIN, which sets NONE, or TRIG, which sets OK when the trigger is
accepted and TRIGGER_ERROR when it is rejected, and in a power-on reset, which clears it. -/
def Obligations.OnlyBeginAndTrigWriteResult : Prop :=
  ∀ s t : State, step s = .next t → t.result ≠ s.result →
    (powersOn s = true ∧ t.result = .none)
    ∨ ∃ task a v rest i, nextEvent s s.agenda = some (.host task (.store a 4 v), rest)
      ∧ a.resolve s.cfg = some 0 ∧ decode (v.setWidth 32) = .ok i
      ∧ ((i = .beginFrame ∧ t.result = .none)
        ∨ (i = .trig ∧ t.result = if refuses s then .triggerError else .ok))

/-- R38, R107: no step changes the parameters, which the model holds in State (log 4). R172: from a state that meets the
invariant no step but power-on reset changes INIT's binding. -/
def Obligations.ConfigurationAndBindingAreFixed : Prop :=
  ∀ s t : State, step s = .next t →
    t.cfg = s.cfg ∧ (HostInv s → s.binding ≠ none → powersOn s = false → t.binding = s.binding)

/-- R110: a byte of the buffer changes only in a step, with FAULT = 0, that stores a PUSH to CMD in ENCODING, which writes the
chunk at the cursor, or that stores 2 bytes to a slot in IDLE, which writes that slot. Power-on reset apart. -/
def Obligations.BufferChangesOnlyByPushOrIdleStore : Prop :=
  ∀ s t : State, powersOn s = false → step s = .next t →
    t.buf.powerOn = s.buf.powerOn
    ∧ ∀ a, readByte t.buf a ≠ readByte s.buf a →
      s.fault = false ∧ ∃ task addr v rest,
        (nextEvent s s.agenda = some (.host task (.store addr 4 v), rest) ∧ addr.resolve s.cfg = some 0
          ∧ (∃ r g b, decode (v.setWidth 32) = .ok (.push r g b))
          ∧ s.owner = .encoding ∧ s.cursor ≠ s.cfg.ledCount ∧ 48 * s.cursor ≤ a ∧ a < 48 * s.cursor + 48)
        ∨ (nextEvent s s.agenda = some (.host task (.store addr 2 v), rest)
          ∧ (∃ off, addr.resolve s.cfg = some off ∧ 0x100 ≤ off ∧ accessOk s.cfg .store off 2 = true
            ∧ slotOfOffset off = a / 2)
          ∧ s.owner = .idle)

/-- R123: no step stops a running pass. A step either is the sequencer's own tick, or leaves the sequencer as it is, but for
slots that become dirty. -/
def Obligations.NoStepStopsAPass : Prop :=
  ∀ s t : State, step s = .next t → s.seq.phase ≠ .off →
    t.seq = (tickSeq s).seq
      ∨ (t.seq = { s.seq with dirty := t.seq.dirty } ∧ ∀ i ∈ s.seq.dirty, i ∈ t.seq.dirty)

/-! ### The sequencer (42_sequence_transmitter.md) -/

/-- R131: the sequencer's tick writes only the line (with its trace) and its own state, and takes draws; so does a whole tick
unless the completion timer is counting: the end of a pass changes nothing else, STATE least of all. -/
def Obligations.SequencerWritesOnlyItsOwn : Prop :=
  ∀ s : State,
    (∃ q l n, tickSeq s = { s with seq := q, line := l, trace := l :: s.trace, draws := n })
    ∧ (¬(s.owner = .waiting ∧ s.timer.failed = false) →
      ∃ q l n, tick s = { s with seq := q, line := l, trace := l :: s.trace, draws := n })

/-- R125: a canonical word is HIGH for its first DUTY ticks, then LOW; any other word has the open waveform. ZERO_CODE is HIGH
for ticks 0 to 5, ONE_CODE for ticks 0 to 12. That level, of the latched word at the period's tick, canonical or not, is what a
tick in BITS puts on the line (R124, R127). -/
def Obligations.LevelWithinAPeriod : Prop :=
  ∀ (d : Nat) (w : Code) (k : Nat),
    (w.getLsbD 15 = true ∧ (w.extractLsb' 0 15).toNat ≤ 20 →
      waveLevel d w k = if k < (w.extractLsb' 0 15).toNat then .high else .low)
    ∧ (¬(w.getLsbD 15 = true ∧ (w.extractLsb' 0 15).toNat ≤ 20) →
      waveLevel d w k = Config.waveOther d w k)
    ∧ waveLevel d 0x8006#16 k = (if k < 6 then .high else .low)
    ∧ waveLevel d 0x800D#16 k = (if k < 13 then .high else .low)
    ∧ ∀ s : State, s.seq.phase = .bits →
      (tickSeq s).line = waveLevel s.draws s.seq.word s.seq.tick
      ∧ (tick s).line = waveLevel s.draws s.seq.word s.seq.tick
      ∧ (tick s).trace = waveLevel s.draws s.seq.word s.seq.tick :: s.trace

/-- R37: after INIT, a tick in which the sequencer is not sending slots leaves the line LOW. -/
def Obligations.LineIsLowOutsideBits : Prop :=
  ∀ s : State, s.binding ≠ none → s.seq.phase ≠ .bits → (tick s).line = .low

/-- R127: the phase after each of the ticks that follow an accepted TRIG. -/
def Obligations.TimelineOfAPass : Prop :=
  ∀ s t : State, s.fault = false → s.owner = .encoding → refuses s = false → 1 ≤ s.cfg.ledCount →
    exec .trig s = .next t → ∀ k,
      (k < s.cfg.startLatency → (ticks k t).seq.phase = .lat)
      ∧ (∀ i j, i < 24 * s.cfg.ledCount → j < 20 → k = s.cfg.startLatency + 20 * i + j →
          (ticks k t).seq.phase = .bits ∧ (ticks k t).seq.slot = i ∧ (ticks k t).seq.tick = j)
      ∧ (s.cfg.startLatency + 480 * s.cfg.ledCount ≤ k →
          k < s.cfg.startLatency + 480 * s.cfg.ledCount + 4320 → (ticks k t).seq.phase = .gap)
      ∧ (s.cfg.startLatency + 480 * s.cfg.ledCount + 4320 ≤ k → (ticks k t).seq.phase = .off)

/-- R129: when every slot holds a canonical word and no host step intervenes, the trace of a pass is a pure function of the
buffer at TRIG; afterwards the sequencer is off and the buffer is as it was. -/
def Obligations.FrameWaveform : Prop :=
  ∀ s t : State, s.fault = false → s.owner = .encoding → refuses s = false → 1 ≤ s.cfg.ledCount →
    (∀ i, i < capacity s.cfg → canonical (readSlot s.buf i) = true) →
    exec .trig s = .next t →
      (ticks (passTicks s.cfg) t).trace = (passWave s.cfg s.buf).reverse ++ s.trace
      ∧ (ticks (passTicks s.cfg) t).seq.phase = .off
      ∧ (ticks (passTicks s.cfg) t).buf = s.buf

/-- R128: what the DMA latches, which slots are unlatched, that a write makes exactly the unlatched ones dirty, and that an
accepted trigger and the gap's last tick empty the dirty set. The ticks that latch (R124): the last of LAT latches slot 0, the
last of a slot with a further slot latches that one; the other ticks of a slot keep the word. That a latched slot stays in
seq.dirty is the model's reading (log 11), and so are the numbering of the draws and that the level's own draw counts before
the latch's (logs 6, 7). -/
def Obligations.DirtySlotsLatchFreeValues : Prop :=
  ∀ (s : State) (i : Nat) (w : Code),
    (i ∈ s.seq.dirty → (latchSlot i s).seq.word = Config.latchValue s.draws)
    ∧ (i ∉ s.seq.dirty → (latchSlot i s).seq.word = readSlot s.buf i)
    ∧ (unlatched s.seq i = true ↔ s.seq.phase = .lat ∨ (s.seq.phase = .bits ∧ s.seq.slot < i))
    ∧ (∀ j, j ∈ (storeSlot i w s).seq.dirty ↔ j ∈ s.seq.dirty ∨ (j = i ∧ unlatched s.seq i = true))
    ∧ (acceptTrigger s).seq.dirty = []
    ∧ (s.seq.phase = .gap → s.seq.cnt = 1 → (tickSeq s).seq.dirty = [])
    ∧ (s.seq.phase = .lat → s.seq.cnt = 1 →
        (tickSeq s).seq = { s.seq with
          phase := .bits, slot := 0, tick := 0, cnt := 0
          word := if 0 ∈ s.seq.dirty then Config.latchValue s.draws else readSlot s.buf 0 })
    ∧ (s.seq.phase = .bits → s.seq.tick = 19 → s.seq.slot + 1 ≠ capacity s.cfg →
        (tickSeq s).seq = { s.seq with
          slot := s.seq.slot + 1, tick := 0
          word :=
            if s.seq.slot + 1 ∈ s.seq.dirty then
              Config.latchValue (if canonical s.seq.word then s.draws else s.draws + 1)
            else readSlot s.buf (s.seq.slot + 1) })
    ∧ (s.seq.phase = .bits → s.seq.tick ≠ 19 → (tickSeq s).seq = { s.seq with tick := s.seq.tick + 1 })

/-- R208, its induction step: the reset gap's LOW ticks are kept by every step, and a pass that follows another begins only
after RESET_TICKS + λ of them without a break. -/
def Obligations.ResetGapSeparatesFrames : Prop :=
  ∀ s t : State, Inv s → GapInv s → step s = .next t →
    GapInv t
      ∧ (s.seq.phase ≠ .bits → t.seq.phase = .bits → s.seq.slot ≠ 0 →
          4320 + s.cfg.startLatency ≤ lowRun t)

/-! ### The completion waiter (43_completion_waiter.md, 70_reset_and_hazards.md) -/

/-- R144: a wait, blocking or suspending, ends exactly 480·N + 4320 ticks after its command, if the timer does not fail. -/
def Obligations.WaitLastsExactlyTheDelay : Prop :=
  ∀ (s t : State) (i : Instr), s.fault = false → s.owner = .transmitting → (i = .waitb ∨ i = .waits) →
    s.cfg.timerMayFail = false → s.timer.failed = false → exec i s = .next t →
      (∀ k, k < 480 * s.cfg.ledCount + 4320 → (ticks k t).owner = .waiting)
      ∧ (ticks (480 * s.cfg.ledCount + 4320) t).owner = .idle
      ∧ (ticks (480 * s.cfg.ledCount + 4320) t).wmode = .blocking
      ∧ (ticks (480 * s.cfg.ledCount + 4320) t).host.blocked = false
      ∧ (ticks (480 * s.cfg.ledCount + 4320) t).host.suspended = none

/-- R205: with g ticks between an accepted TRIG and the wait command, the block returns to IDLE no earlier than the pass ends
exactly if g ≥ λ. -/
def Obligations.CompletionDelayHasZeroMargin : Prop :=
  ∀ (s t u : State) (g : Nat) (i : Instr), s.fault = false → s.owner = .encoding → refuses s = false →
    1 ≤ s.cfg.ledCount → s.cfg.timerMayFail = false → s.timer.failed = false → (i = .waitb ∨ i = .waits) →
    exec .trig s = .next t → exec i (ticks g t) = .next u →
      (∀ k, k < 480 * s.cfg.ledCount + 4320 → (ticks k u).owner = .waiting)
      ∧ (ticks (480 * s.cfg.ledCount + 4320) u).owner = .idle
      ∧ ((ticks (480 * s.cfg.ledCount + 4320) u).seq.phase = .off ↔ s.cfg.startLatency ≤ g)

/-- R145, R146: the whole of a tick in WAITING whose timer has not failed. The sequencer's half changes only the sequencer, the
line and its trace (R131). Only with TIMER_MAY_FAIL and a true draw does the timer fail: SUSPENSION_FAILURE is recorded, and the
timer and STATE stay. Otherwise nothing is recorded and the timer counts one tick down: at 0 STATE is IDLE and WMODE 0, the host
is unblocked, no task is suspended, and the task that waited is noted (log 22); above 0 the wait goes on. CURSOR (R29), the
buffer, RESULT, the agenda and all else stay. Once failed, STATE, the timer and the waiting host stay for any number of ticks.
The count of draws is the model's (log 6). -/
def Obligations.TimerFailureHangsTheWait : Prop :=
  ∀ s : State, s.owner = .waiting →
    (s.timer.failed = false → ∃ n,
      let u := { s with
        seq := (tickSeq s).seq, line := (tickSeq s).line, trace := (tickSeq s).line :: s.trace, draws := n }
      tick s =
        if s.cfg.timerMayFail = true ∧ Config.timerFail (tickSeq s).draws = true then
          { u with
            timer := { s.timer with failed := true }
            fault := true
            fcode := if s.fault then s.fcode else 2#4 }
        else if s.timer.remain - 1 = 0 then
          { u with
            owner := .idle
            wmode := .blocking
            timer := { s.timer with remain := 0 }
            host := { s.host with blocked := false, suspended := none, elapsed := noteElapsed s.host } }
        else { u with timer := { s.timer with remain := s.timer.remain - 1 } })
    ∧ (s.timer.failed = true → ∀ k, (ticks k s).owner = .waiting ∧ (ticks k s).timer = s.timer
        ∧ (ticks k s).host = s.host)

/-- R185: when the last gap tick and the timer's expiry fall on one tick, both take effect in it. -/
def Obligations.GapEndAndExpiryShareATick : Prop :=
  ∀ s : State, s.seq.phase = .gap → s.seq.cnt = 1 → s.owner = .waiting → s.timer.remain = 1 →
    s.timer.failed = false → s.cfg.timerMayFail = false →
    (tick s).seq.phase = .off ∧ (tick s).owner = .idle ∧ (tick s).wmode = .blocking
      ∧ (tick s).host.blocked = false

/-! ### Host bus accesses (20_memory.md, 45_construction_and_host_access.md, 60_exceptions.md) -/

/-- R166: the access check fails exactly in its five cases. When it fails with FAULT = 0 it raises ACCESS_FAULT (FCODE 6), and
the access has no other effect (R184: before any other check). -/
def Obligations.AccessCheckCases : Prop :=
  (∀ (p : Config.Params) (kind : AccessKind) (off n : Nat),
    accessOk p kind off n = false ↔
      ((0x034 ≤ off ∧ off ≤ 0x0FF) ∨ 0x100 + 48 * p.ledCount ≤ off)
      ∨ (off < 0x034 ∧ (n ≠ 4 ∨ off % 4 ≠ 0))
      ∨ (0x100 ≤ off ∧ (n ≠ 2 ∨ off % 2 ≠ 0))
      ∨ (kind = .load ∧ off = 0x000)
      ∨ (kind = .store ∧ 0x004 ≤ off ∧ off ≤ 0x030))
  ∧ ∀ (s : State) (off n : Nat) (v : BusData), s.fault = false →
    (accessOk s.cfg .load off n = false → memRead off n s = { s with
        fault := true, fcode := 6#4, host := { s.host with reply := .faulted .accessFault } })
    ∧ (accessOk s.cfg .store off n = false → memWrite off n v s = .next { s with
        fault := true, fcode := 6#4, host := { s.host with reply := .faulted .accessFault } })

/-- R22, R30, R31, R154, R163: a 32-bit load at a register's offset returns its value in every STATE, whatever FAULT holds,
and changes nothing but the reply. -/
def Obligations.RegisterLoadsReturnTheMap : Prop :=
  ∀ (s : State) (off : Nat) (w : Word),
    (off, w) ∈ [ (0x004, statusWord s), (0x008, (BitVec.ofNat 16 s.cursor).setWidth 32),
      (0x00C, BitVec.ofNat 32 s.cfg.ledCount), (0x010, BitVec.ofNat 32 (24 * s.cfg.ledCount)),
      (0x014, 0x00008006#32), (0x018, 0x0000800D#32), (0x01C, 20#32), (0x020, 4320#32), (0x024, 270#32),
      (0x028, BitVec.ofNat 32 (30 * s.cfg.ledCount + 270)), (0x02C, 0x00000001#32), (0x030, 16#32) ] →
    memRead off 4 s = { s with host := { s.host with reply := .value (w.setWidth 64) } }

/-- R24: the fields of STATUS and their values. -/
def Obligations.StatusFields : Prop :=
  ∀ s : State,
    (statusWord s).extractLsb' 0 3 = (match s.owner with
      | .uninit => 0#3 | .idle => 1#3 | .encoding => 2#3 | .transmitting => 3#3 | .waiting => 4#3)
    ∧ (statusWord s).extractLsb' 3 1 = (match s.wmode with | .blocking => 0#1 | .suspending => 1#1)
    ∧ (statusWord s).extractLsb' 4 2 = (match s.result with | .none => 0#2 | .ok => 1#2 | .triggerError => 2#2)
    ∧ (statusWord s).getLsbD 6 = s.fault
    ∧ (statusWord s).getLsbD 7 = false ∧ (statusWord s).extractLsb' 8 4 = s.fcode
    ∧ (statusWord s).extractLsb' 12 20 = 0#20

/-- R153, R161, R162: BUF[i] in IDLE with FAULT = 0. A load returns the slot and changes nothing else; a store writes the slot,
marks it if the running pass has not latched it, and leaves every other byte and everything else as it was. -/
def Obligations.SlotAccessesInIdle : Prop :=
  ∀ (s : State) (i : Nat) (v : BusData), s.fault = false → s.owner = .idle → i < 24 * s.cfg.ledCount →
    memRead (0x100 + 2 * i) 2 s
        = { s with host := { s.host with reply := .value ((readSlot s.buf i).setWidth 64) } }
    ∧ ∃ t, memWrite (0x100 + 2 * i) 2 v s = .next t
      ∧ readSlot t.buf i = v.setWidth 16
      ∧ (∀ a, a ≠ 2 * i → a ≠ 2 * i + 1 → readByte t.buf a = readByte s.buf a)
      ∧ t.buf.powerOn = s.buf.powerOn
      ∧ (∀ j, j ∈ t.seq.dirty ↔ j ∈ s.seq.dirty ∨ (j = i ∧ unlatched s.seq i = true))
      ∧ t = { s with buf := t.buf, seq := { s.seq with dirty := t.seq.dirty } }

/-- R153: outside IDLE with FAULT = 0, an access to BUF[i] raises OWNERSHIP_VIOLATION and has no other effect. -/
def Obligations.SlotAccessOutsideIdleRaises : Prop :=
  ∀ (s : State) (i : Nat) (v : BusData), s.fault = false → s.owner ≠ .idle → i < 24 * s.cfg.ledCount →
    memRead (0x100 + 2 * i) 2 s = { s with
        fault := true, fcode := 5#4, host := { s.host with reply := .faulted .ownershipViolation } }
    ∧ memWrite (0x100 + 2 * i) 2 v s = .next { s with
        fault := true, fcode := 5#4, host := { s.host with reply := .faulted .ownershipViolation } }

/-- R182: while FAULT = 1 every command and every store is ignored, a load of BUF returns a draw, and a register load its
value; a load that fails the access check returns a draw too, whatever its width (log 16); the sequencer's pass and a wait's timer go on. -/
def Obligations.FaultedBlockGoesOn : Prop :=
  ∀ (s : State) (j : Instr) (off n i : Nat) (v : BusData), s.fault = true →
    exec j s = .next s
    ∧ memWrite off n v s = .next s
    ∧ (i < 24 * s.cfg.ledCount → memRead (0x100 + 2 * i) 2 s = replyDraw 2 s)
    ∧ (accessOk s.cfg .load off n = false → memRead off n s = replyDraw n s)
    ∧ (4 ≤ off → off ≤ 0x030 → off % 4 = 0 →
        memRead off 4 s = setReply (.value ((readRegister off s).setWidth 64)) s)
    ∧ (tick s).seq = (tick { s with fault := false }).seq
    ∧ (tick s).owner = (tick { s with fault := false }).owner
    ∧ (tick s).timer = (tick { s with fault := false }).timer

/-- R161 to R165: a step whose next event is a load or a store is that access at the state in which the host has taken its turn.
An access belongs to the block exactly inside its window, where it is MemRead or MemWrite at its offset, the distance from the
base; elsewhere the block is left as it is, and the host's reply says so (log 14). -/
def Obligations.OnlyTheWindowBelongsToTheBlock : Prop :=
  (∀ (s : State) (a n : Nat) (v : BusData),
    (s.cfg.blockBase ≤ a → a < s.cfg.blockBase + 0x20000 →
      (HostAddr.absolute a).resolve s.cfg = some (a - s.cfg.blockBase)
        ∧ (HostAddr.absolute a).resolve s.cfg
            = (HostAddr.window (BitVec.ofNat 17 (a - s.cfg.blockBase))).resolve s.cfg)
    ∧ (a < s.cfg.blockBase ∨ s.cfg.blockBase + 0x20000 ≤ a →
      busLoad (.absolute a) n s = { s with host := { s.host with reply := .elsewhere } }
        ∧ busStore (.absolute a) n v s = .next { s with host := { s.host with reply := .elsewhere } }))
  ∧ (∀ (s : State) (addr : HostAddr) (off n : Nat) (v : BusData), addr.resolve s.cfg = some off →
      busLoad addr n s = memRead off n s ∧ busStore addr n v s = memWrite off n v s)
  ∧ ∀ (s : State) (task : Nat) (addr : HostAddr) (n : Nat) (v : BusData) (rest : List Event),
    (nextEvent s s.agenda = some (.host task (.load addr n), rest) →
      step s = .next (busLoad addr n (hostTurn task rest s)))
    ∧ (nextEvent s s.agenda = some (.host task (.store addr n v), rest) →
      step s = busStore addr n v (hostTurn task rest s))

/-- R84, R147, R170: WRITE's branch on RESULT, one host step (log 22). On TRIGGER_ERROR the write returns the error and no wait
follows; else the wait command and then the write's end are the task's next steps, and no earlier wait of the task counts. The
write then returns Ok exactly if a wait of its task has lasted the full delay: only the timer's last tick says so, of the task
that waits; and no other step of any kind returns Ok. -/
def Obligations.WriteBranchesOnResult : Prop :=
  (∀ (s : State) (task : Nat) (mode : WaitMode) (rest : List Event),
    nextEvent s s.agenda = some (.host task (.checkResult mode), rest) →
    ∃ t, step s = .next t
      ∧ (s.result = .triggerError →
          t.host.results = (task, WriteResult.triggerError) :: s.host.results ∧ t.agenda = rest)
      ∧ (s.result ≠ .triggerError → t.host.results = s.host.results ∧ task ∉ t.host.elapsed
          ∧ t.agenda = .host task (storeCommand (waitCommand mode)) :: .host task (.finishWrite .ok) :: rest))
  ∧ (∀ (s : State) (task : Nat) (rest : List Event),
    nextEvent s s.agenda = some (.host task (.finishWrite .ok), rest) →
    ∃ t, step s = .next t ∧ t.agenda = rest
      ∧ t.host.results = if task ∈ s.host.elapsed then (task, WriteResult.ok) :: s.host.results else s.host.results)
  ∧ (∀ s t : State, step s = .next t → ∀ x, x ∈ t.host.elapsed → x ∉ s.host.elapsed →
    s.owner = .waiting ∧ t.owner = .idle ∧ s.timer.failed = false ∧ s.timer.remain ≤ 1
      ∧ (if s.host.blocked then x = s.host.task else s.host.suspended = some x))
  ∧ (∀ s t : State, step s = .next t → t.host.results ≠ s.host.results →
    ∃ task r, t.host.results = (task, r) :: s.host.results ∧ (r = .ok → task ∈ s.host.elapsed))

/-! ### Encoded frames (41_frame_encoder.md) -/

/-- R115: after BEGIN and PUSH of at most N colours, decoding chunk i gives back colour i. -/
def Obligations.EncodedColoursDecode : Prop :=
  ∀ (s t : State) (colours : List Color), s.fault = false → s.owner = .idle →
    colours.length ≤ s.cfg.ledCount → exec .beginFrame s = .next t →
    ∀ i c, colours[i]? = some c → decodeChunk (pushAll colours t).buf i = some c

/-- R113: after BEGIN and PUSH of L colours with L ≤ N, the chunks from L on hold what they held before, and CURSOR is L. -/
def Obligations.UnfilledTailIsKept : Prop :=
  ∀ (s t : State) (colours : List Color), s.fault = false → s.owner = .idle →
    colours.length ≤ s.cfg.ledCount → exec .beginFrame s = .next t →
    (∀ a, 48 * colours.length ≤ a → readByte (pushAll colours t).buf a = readByte s.buf a)
      ∧ (pushAll colours t).cursor = colours.length

/-- R114: the buffer after BEGIN and the PUSHes is a function of the buffer before and the colours alone: two blocks of equal
size with equal buffers, whatever else differs, end with equal buffers. Chunk i of a pushed colour is its encoding; the
chunks after the last colour are unchanged. -/
def Obligations.EncodingIsDeterministic : Prop :=
  ∀ (s₁ s₂ t₁ t₂ : State) (colours : List Color), s₁.fault = false → s₂.fault = false →
    s₁.owner = .idle → s₂.owner = .idle → s₁.cfg.ledCount = s₂.cfg.ledCount →
    colours.length ≤ s₁.cfg.ledCount → (∀ a, readByte s₁.buf a = readByte s₂.buf a) →
    exec .beginFrame s₁ = .next t₁ → exec .beginFrame s₂ = .next t₂ →
    (∀ a, readByte (pushAll colours t₁).buf a = readByte (pushAll colours t₂).buf a)
      ∧ (∀ i c, colours[i]? = some c → ∀ k, k < 24 →
          readSlot (pushAll colours t₁).buf (24 * i + k) = chunkCode c.r c.g c.b k)
      ∧ (∀ a, 48 * colours.length ≤ a → readByte (pushAll colours t₁).buf a = readByte s₁.buf a)

/-! ### Reset and the invariants (10_state.md, 70_reset_and_hazards.md) -/

/-- R42, R200: the state after power-on reset, and the constant registers, which hold their values from reset. -/
def Obligations.ResetValues : Prop :=
  ∀ cfg : Config.Params, let s := State.resetWith cfg
    s.owner = .uninit ∧ s.wmode = .blocking ∧ s.result = .none ∧ s.fault = false ∧ s.fcode = 0#4
      ∧ statusWord s = 0x00000000#32 ∧ s.cursor = 0
      ∧ s.seq.phase = .off ∧ s.seq.cnt = 0 ∧ s.seq.slot = 0 ∧ s.seq.tick = 0 ∧ s.seq.dirty = []
      ∧ s.timer.remain = 0 ∧ s.timer.failed = false ∧ s.host.blocked = false
      ∧ s.line = cfg.linePreInit ∧ (∀ i, readSlot s.buf i = Config.initBuffer 0 i)
      ∧ readRegister 0x00C s = BitVec.ofNat 32 cfg.ledCount ∧ readRegister 0x010 s = BitVec.ofNat 32 (24 * cfg.ledCount)
      ∧ readRegister 0x014 s = 0x00008006#32 ∧ readRegister 0x018 s = 0x0000800D#32
      ∧ readRegister 0x01C s = 20#32 ∧ readRegister 0x020 s = 4320#32 ∧ readRegister 0x024 s = 270#32
      ∧ readRegister 0x028 s = BitVec.ofNat 32 (30 * cfg.ledCount + 270) ∧ readRegister 0x02C s = 1#32
      ∧ readRegister 0x030 s = 16#32

/-- The model's invariants hold of a loaded machine, whatever its parameters and program, and so at State.reset. -/
def Obligations.InvariantsHoldAtReset : Prop :=
  (∀ cfg agenda, Inv (loaded cfg agenda) ∧ GapInv (loaded cfg agenda)) ∧ Inv State.reset

/-- Every step, from every state that meets the model's invariant, gives a state that meets it: the clauses of R41, the counter
ranges of R33, the buffer's canonical form, and the host's wait status. -/
def Obligations.StepKeepsTheInvariant : Prop :=
  ∀ s t : State, Inv s → step s = .next t → Inv t

/-- R41: every reachable state of every launch, with every host program, satisfies the six invariants. -/
def Obligations.ReachableStatesMeetR41 : Prop :=
  ∀ s : State, Reachable s → SpecInv s
end

