-- ==== Sys2Proof/Laws/State.lean ====
section
/-! SUPPORT. One lemma for each field of State and each named update of it. All hold by rfl, so that no later proof unfolds
a record update. -/

namespace Sys2Proof.Machine

variable (s : State)

/-! ### storeSlot -/

@[simp] theorem storeSlot_cfg (i : Nat) (w : Code) : (storeSlot i w s).cfg = s.cfg := rfl
@[simp] theorem storeSlot_owner (i : Nat) (w : Code) : (storeSlot i w s).owner = s.owner := rfl
@[simp] theorem storeSlot_wmode (i : Nat) (w : Code) : (storeSlot i w s).wmode = s.wmode := rfl
@[simp] theorem storeSlot_result (i : Nat) (w : Code) : (storeSlot i w s).result = s.result := rfl
@[simp] theorem storeSlot_fault (i : Nat) (w : Code) : (storeSlot i w s).fault = s.fault := rfl
@[simp] theorem storeSlot_fcode (i : Nat) (w : Code) : (storeSlot i w s).fcode = s.fcode := rfl
@[simp] theorem storeSlot_cursor (i : Nat) (w : Code) : (storeSlot i w s).cursor = s.cursor := rfl
@[simp] theorem storeSlot_buf (i : Nat) (w : Code) : (storeSlot i w s).buf = writeSlot s.buf i w := rfl
@[simp] theorem storeSlot_seq (i : Nat) (w : Code) :
    (storeSlot i w s).seq = { s.seq with dirty := if unlatched s.seq i then insertSlot i s.seq.dirty else s.seq.dirty } := rfl
@[simp] theorem storeSlot_timer (i : Nat) (w : Code) : (storeSlot i w s).timer = s.timer := rfl
@[simp] theorem storeSlot_host (i : Nat) (w : Code) : (storeSlot i w s).host = s.host := rfl
@[simp] theorem storeSlot_line (i : Nat) (w : Code) : (storeSlot i w s).line = s.line := rfl
@[simp] theorem storeSlot_trace (i : Nat) (w : Code) : (storeSlot i w s).trace = s.trace := rfl
@[simp] theorem storeSlot_binding (i : Nat) (w : Code) : (storeSlot i w s).binding = s.binding := rfl
@[simp] theorem storeSlot_agenda (i : Nat) (w : Code) : (storeSlot i w s).agenda = s.agenda := rfl
@[simp] theorem storeSlot_draws (i : Nat) (w : Code) : (storeSlot i w s).draws = s.draws := rfl

/-! ### recordFault -/

@[simp] theorem recordFault_cfg (c : Cause) : (recordFault c s).cfg = s.cfg := rfl
@[simp] theorem recordFault_owner (c : Cause) : (recordFault c s).owner = s.owner := rfl
@[simp] theorem recordFault_wmode (c : Cause) : (recordFault c s).wmode = s.wmode := rfl
@[simp] theorem recordFault_result (c : Cause) : (recordFault c s).result = s.result := rfl
@[simp] theorem recordFault_fault (c : Cause) : (recordFault c s).fault = true := rfl
@[simp] theorem recordFault_fcode (c : Cause) : (recordFault c s).fcode = if s.fault then s.fcode else c.code := rfl
@[simp] theorem recordFault_cursor (c : Cause) : (recordFault c s).cursor = s.cursor := rfl
@[simp] theorem recordFault_buf (c : Cause) : (recordFault c s).buf = s.buf := rfl
@[simp] theorem recordFault_seq (c : Cause) : (recordFault c s).seq = s.seq := rfl
@[simp] theorem recordFault_timer (c : Cause) : (recordFault c s).timer = s.timer := rfl
@[simp] theorem recordFault_host (c : Cause) : (recordFault c s).host = s.host := rfl
@[simp] theorem recordFault_line (c : Cause) : (recordFault c s).line = s.line := rfl
@[simp] theorem recordFault_trace (c : Cause) : (recordFault c s).trace = s.trace := rfl
@[simp] theorem recordFault_binding (c : Cause) : (recordFault c s).binding = s.binding := rfl
@[simp] theorem recordFault_agenda (c : Cause) : (recordFault c s).agenda = s.agenda := rfl
@[simp] theorem recordFault_draws (c : Cause) : (recordFault c s).draws = s.draws := rfl

/-! ### raiseFault -/

@[simp] theorem raiseFault_cfg (c : Cause) : (raiseFault c s).cfg = s.cfg := rfl
@[simp] theorem raiseFault_owner (c : Cause) : (raiseFault c s).owner = s.owner := rfl
@[simp] theorem raiseFault_wmode (c : Cause) : (raiseFault c s).wmode = s.wmode := rfl
@[simp] theorem raiseFault_result (c : Cause) : (raiseFault c s).result = s.result := rfl
@[simp] theorem raiseFault_fault (c : Cause) : (raiseFault c s).fault = true := rfl
@[simp] theorem raiseFault_fcode (c : Cause) : (raiseFault c s).fcode = if s.fault then s.fcode else c.code := rfl
@[simp] theorem raiseFault_cursor (c : Cause) : (raiseFault c s).cursor = s.cursor := rfl
@[simp] theorem raiseFault_buf (c : Cause) : (raiseFault c s).buf = s.buf := rfl
@[simp] theorem raiseFault_seq (c : Cause) : (raiseFault c s).seq = s.seq := rfl
@[simp] theorem raiseFault_timer (c : Cause) : (raiseFault c s).timer = s.timer := rfl
@[simp] theorem raiseFault_host (c : Cause) : (raiseFault c s).host = { s.host with reply := .faulted c } := rfl
@[simp] theorem raiseFault_line (c : Cause) : (raiseFault c s).line = s.line := rfl
@[simp] theorem raiseFault_trace (c : Cause) : (raiseFault c s).trace = s.trace := rfl
@[simp] theorem raiseFault_binding (c : Cause) : (raiseFault c s).binding = s.binding := rfl
@[simp] theorem raiseFault_agenda (c : Cause) : (raiseFault c s).agenda = s.agenda := rfl
@[simp] theorem raiseFault_draws (c : Cause) : (raiseFault c s).draws = s.draws := rfl

/-! ### setReply -/

@[simp] theorem setReply_cfg (r : Reply) : (setReply r s).cfg = s.cfg := rfl
@[simp] theorem setReply_owner (r : Reply) : (setReply r s).owner = s.owner := rfl
@[simp] theorem setReply_wmode (r : Reply) : (setReply r s).wmode = s.wmode := rfl
@[simp] theorem setReply_result (r : Reply) : (setReply r s).result = s.result := rfl
@[simp] theorem setReply_fault (r : Reply) : (setReply r s).fault = s.fault := rfl
@[simp] theorem setReply_fcode (r : Reply) : (setReply r s).fcode = s.fcode := rfl
@[simp] theorem setReply_cursor (r : Reply) : (setReply r s).cursor = s.cursor := rfl
@[simp] theorem setReply_buf (r : Reply) : (setReply r s).buf = s.buf := rfl
@[simp] theorem setReply_seq (r : Reply) : (setReply r s).seq = s.seq := rfl
@[simp] theorem setReply_timer (r : Reply) : (setReply r s).timer = s.timer := rfl
@[simp] theorem setReply_host (r : Reply) : (setReply r s).host = { s.host with reply := r } := rfl
@[simp] theorem setReply_line (r : Reply) : (setReply r s).line = s.line := rfl
@[simp] theorem setReply_trace (r : Reply) : (setReply r s).trace = s.trace := rfl
@[simp] theorem setReply_binding (r : Reply) : (setReply r s).binding = s.binding := rfl
@[simp] theorem setReply_agenda (r : Reply) : (setReply r s).agenda = s.agenda := rfl
@[simp] theorem setReply_draws (r : Reply) : (setReply r s).draws = s.draws := rfl

/-! ### replyDraw -/

@[simp] theorem replyDraw_cfg (n : Nat) : (replyDraw n s).cfg = s.cfg := rfl
@[simp] theorem replyDraw_owner (n : Nat) : (replyDraw n s).owner = s.owner := rfl
@[simp] theorem replyDraw_wmode (n : Nat) : (replyDraw n s).wmode = s.wmode := rfl
@[simp] theorem replyDraw_result (n : Nat) : (replyDraw n s).result = s.result := rfl
@[simp] theorem replyDraw_fault (n : Nat) : (replyDraw n s).fault = s.fault := rfl
@[simp] theorem replyDraw_fcode (n : Nat) : (replyDraw n s).fcode = s.fcode := rfl
@[simp] theorem replyDraw_cursor (n : Nat) : (replyDraw n s).cursor = s.cursor := rfl
@[simp] theorem replyDraw_buf (n : Nat) : (replyDraw n s).buf = s.buf := rfl
@[simp] theorem replyDraw_seq (n : Nat) : (replyDraw n s).seq = s.seq := rfl
@[simp] theorem replyDraw_timer (n : Nat) : (replyDraw n s).timer = s.timer := rfl
@[simp] theorem replyDraw_host (n : Nat) :
    (replyDraw n s).host = { s.host with reply := .value (truncBytes n (Config.anyValue s.draws)) } := rfl
@[simp] theorem replyDraw_line (n : Nat) : (replyDraw n s).line = s.line := rfl
@[simp] theorem replyDraw_trace (n : Nat) : (replyDraw n s).trace = s.trace := rfl
@[simp] theorem replyDraw_binding (n : Nat) : (replyDraw n s).binding = s.binding := rfl
@[simp] theorem replyDraw_agenda (n : Nat) : (replyDraw n s).agenda = s.agenda := rfl
@[simp] theorem replyDraw_draws (n : Nat) : (replyDraw n s).draws = s.draws + 1 := rfl

/-! ### powerOnReset -/

@[simp] theorem powerOnReset_cfg (rest : List Event) : (powerOnReset rest s).cfg = s.cfg := rfl
@[simp] theorem powerOnReset_owner (rest : List Event) : (powerOnReset rest s).owner = .uninit := rfl
@[simp] theorem powerOnReset_wmode (rest : List Event) : (powerOnReset rest s).wmode = .blocking := rfl
@[simp] theorem powerOnReset_result (rest : List Event) : (powerOnReset rest s).result = .none := rfl
@[simp] theorem powerOnReset_fault (rest : List Event) : (powerOnReset rest s).fault = false := rfl
@[simp] theorem powerOnReset_fcode (rest : List Event) : (powerOnReset rest s).fcode = 0#4 := rfl
@[simp] theorem powerOnReset_cursor (rest : List Event) : (powerOnReset rest s).cursor = 0 := rfl
@[simp] theorem powerOnReset_buf (rest : List Event) :
    (powerOnReset rest s).buf = { powerOn := s.buf.powerOn + 1, cells := [] } := rfl
@[simp] theorem powerOnReset_seq (rest : List Event) :
    (powerOnReset rest s).seq = { phase := .off, cnt := 0, slot := 0, tick := 0, word := 0#16, dirty := [] } := rfl
@[simp] theorem powerOnReset_timer (rest : List Event) :
    (powerOnReset rest s).timer = { remain := 0, failed := false } := rfl
@[simp] theorem powerOnReset_host (rest : List Event) :
    (powerOnReset rest s).host = { s.host with blocked := false, suspended := none, reply := .none } := rfl
@[simp] theorem powerOnReset_line (rest : List Event) : (powerOnReset rest s).line = s.cfg.linePreInit := rfl
@[simp] theorem powerOnReset_trace (rest : List Event) : (powerOnReset rest s).trace = s.trace := rfl
@[simp] theorem powerOnReset_binding (rest : List Event) : (powerOnReset rest s).binding = none := rfl
@[simp] theorem powerOnReset_agenda (rest : List Event) : (powerOnReset rest s).agenda = rest := rfl
@[simp] theorem powerOnReset_draws (rest : List Event) : (powerOnReset rest s).draws = s.draws := rfl

/-! ### setAgenda -/

@[simp] theorem setAgenda_cfg (rest : List Event) : (setAgenda rest s).cfg = s.cfg := rfl
@[simp] theorem setAgenda_owner (rest : List Event) : (setAgenda rest s).owner = s.owner := rfl
@[simp] theorem setAgenda_wmode (rest : List Event) : (setAgenda rest s).wmode = s.wmode := rfl
@[simp] theorem setAgenda_result (rest : List Event) : (setAgenda rest s).result = s.result := rfl
@[simp] theorem setAgenda_fault (rest : List Event) : (setAgenda rest s).fault = s.fault := rfl
@[simp] theorem setAgenda_fcode (rest : List Event) : (setAgenda rest s).fcode = s.fcode := rfl
@[simp] theorem setAgenda_cursor (rest : List Event) : (setAgenda rest s).cursor = s.cursor := rfl
@[simp] theorem setAgenda_buf (rest : List Event) : (setAgenda rest s).buf = s.buf := rfl
@[simp] theorem setAgenda_seq (rest : List Event) : (setAgenda rest s).seq = s.seq := rfl
@[simp] theorem setAgenda_timer (rest : List Event) : (setAgenda rest s).timer = s.timer := rfl
@[simp] theorem setAgenda_host (rest : List Event) : (setAgenda rest s).host = s.host := rfl
@[simp] theorem setAgenda_line (rest : List Event) : (setAgenda rest s).line = s.line := rfl
@[simp] theorem setAgenda_trace (rest : List Event) : (setAgenda rest s).trace = s.trace := rfl
@[simp] theorem setAgenda_binding (rest : List Event) : (setAgenda rest s).binding = s.binding := rfl
@[simp] theorem setAgenda_agenda (rest : List Event) : (setAgenda rest s).agenda = rest := rfl
@[simp] theorem setAgenda_draws (rest : List Event) : (setAgenda rest s).draws = s.draws := rfl

/-! ### emit -/

@[simp] theorem emit_cfg (l : Level) : (emit l s).cfg = s.cfg := rfl
@[simp] theorem emit_owner (l : Level) : (emit l s).owner = s.owner := rfl
@[simp] theorem emit_wmode (l : Level) : (emit l s).wmode = s.wmode := rfl
@[simp] theorem emit_result (l : Level) : (emit l s).result = s.result := rfl
@[simp] theorem emit_fault (l : Level) : (emit l s).fault = s.fault := rfl
@[simp] theorem emit_fcode (l : Level) : (emit l s).fcode = s.fcode := rfl
@[simp] theorem emit_cursor (l : Level) : (emit l s).cursor = s.cursor := rfl
@[simp] theorem emit_buf (l : Level) : (emit l s).buf = s.buf := rfl
@[simp] theorem emit_seq (l : Level) : (emit l s).seq = s.seq := rfl
@[simp] theorem emit_timer (l : Level) : (emit l s).timer = s.timer := rfl
@[simp] theorem emit_host (l : Level) : (emit l s).host = s.host := rfl
@[simp] theorem emit_line (l : Level) : (emit l s).line = l := rfl
@[simp] theorem emit_trace (l : Level) : (emit l s).trace = l :: s.trace := rfl
@[simp] theorem emit_binding (l : Level) : (emit l s).binding = s.binding := rfl
@[simp] theorem emit_agenda (l : Level) : (emit l s).agenda = s.agenda := rfl
@[simp] theorem emit_draws (l : Level) : (emit l s).draws = s.draws := rfl

/-! ### construct -/

@[simp] theorem construct_cfg : (construct s).cfg = s.cfg := rfl
@[simp] theorem construct_owner : (construct s).owner = .idle := rfl
@[simp] theorem construct_wmode : (construct s).wmode = s.wmode := rfl
@[simp] theorem construct_result : (construct s).result = s.result := rfl
@[simp] theorem construct_fault : (construct s).fault = s.fault := rfl
@[simp] theorem construct_fcode : (construct s).fcode = s.fcode := rfl
@[simp] theorem construct_cursor : (construct s).cursor = s.cursor := rfl
@[simp] theorem construct_buf : (construct s).buf = s.buf := rfl
@[simp] theorem construct_seq : (construct s).seq = s.seq := rfl
@[simp] theorem construct_timer : (construct s).timer = s.timer := rfl
@[simp] theorem construct_host : (construct s).host = s.host := rfl
@[simp] theorem construct_line : (construct s).line = .low := rfl
@[simp] theorem construct_trace : (construct s).trace = s.trace := rfl
@[simp] theorem construct_binding :
    (construct s).binding = some { pin := s.cfg.outputPin, drive := s.cfg.drive } := rfl
@[simp] theorem construct_agenda : (construct s).agenda = s.agenda := rfl
@[simp] theorem construct_draws : (construct s).draws = s.draws := rfl

/-! ### startFrame -/

@[simp] theorem startFrame_cfg : (startFrame s).cfg = s.cfg := rfl
@[simp] theorem startFrame_owner : (startFrame s).owner = .encoding := rfl
@[simp] theorem startFrame_wmode : (startFrame s).wmode = s.wmode := rfl
@[simp] theorem startFrame_result : (startFrame s).result = .none := rfl
@[simp] theorem startFrame_fault : (startFrame s).fault = s.fault := rfl
@[simp] theorem startFrame_fcode : (startFrame s).fcode = s.fcode := rfl
@[simp] theorem startFrame_cursor : (startFrame s).cursor = 0 := rfl
@[simp] theorem startFrame_buf : (startFrame s).buf = s.buf := rfl
@[simp] theorem startFrame_seq : (startFrame s).seq = s.seq := rfl
@[simp] theorem startFrame_timer : (startFrame s).timer = s.timer := rfl
@[simp] theorem startFrame_host : (startFrame s).host = s.host := rfl
@[simp] theorem startFrame_line : (startFrame s).line = s.line := rfl
@[simp] theorem startFrame_trace : (startFrame s).trace = s.trace := rfl
@[simp] theorem startFrame_binding : (startFrame s).binding = s.binding := rfl
@[simp] theorem startFrame_agenda : (startFrame s).agenda = s.agenda := rfl
@[simp] theorem startFrame_draws : (startFrame s).draws = s.draws := rfl

/-! ### advanceCursor -/

@[simp] theorem advanceCursor_cfg : (advanceCursor s).cfg = s.cfg := rfl
@[simp] theorem advanceCursor_owner : (advanceCursor s).owner = s.owner := rfl
@[simp] theorem advanceCursor_wmode : (advanceCursor s).wmode = s.wmode := rfl
@[simp] theorem advanceCursor_result : (advanceCursor s).result = s.result := rfl
@[simp] theorem advanceCursor_fault : (advanceCursor s).fault = s.fault := rfl
@[simp] theorem advanceCursor_fcode : (advanceCursor s).fcode = s.fcode := rfl
@[simp] theorem advanceCursor_cursor : (advanceCursor s).cursor = s.cursor + 1 := rfl
@[simp] theorem advanceCursor_buf : (advanceCursor s).buf = s.buf := rfl
@[simp] theorem advanceCursor_seq : (advanceCursor s).seq = s.seq := rfl
@[simp] theorem advanceCursor_timer : (advanceCursor s).timer = s.timer := rfl
@[simp] theorem advanceCursor_host : (advanceCursor s).host = s.host := rfl
@[simp] theorem advanceCursor_line : (advanceCursor s).line = s.line := rfl
@[simp] theorem advanceCursor_trace : (advanceCursor s).trace = s.trace := rfl
@[simp] theorem advanceCursor_binding : (advanceCursor s).binding = s.binding := rfl
@[simp] theorem advanceCursor_agenda : (advanceCursor s).agenda = s.agenda := rfl
@[simp] theorem advanceCursor_draws : (advanceCursor s).draws = s.draws := rfl

/-! ### countRefusalDraw -/

@[simp] theorem countRefusalDraw_cfg : (countRefusalDraw s).cfg = s.cfg := rfl
@[simp] theorem countRefusalDraw_owner : (countRefusalDraw s).owner = s.owner := rfl
@[simp] theorem countRefusalDraw_wmode : (countRefusalDraw s).wmode = s.wmode := rfl
@[simp] theorem countRefusalDraw_result : (countRefusalDraw s).result = s.result := rfl
@[simp] theorem countRefusalDraw_fault : (countRefusalDraw s).fault = s.fault := rfl
@[simp] theorem countRefusalDraw_fcode : (countRefusalDraw s).fcode = s.fcode := rfl
@[simp] theorem countRefusalDraw_cursor : (countRefusalDraw s).cursor = s.cursor := rfl
@[simp] theorem countRefusalDraw_buf : (countRefusalDraw s).buf = s.buf := rfl
@[simp] theorem countRefusalDraw_seq : (countRefusalDraw s).seq = s.seq := rfl
@[simp] theorem countRefusalDraw_timer : (countRefusalDraw s).timer = s.timer := rfl
@[simp] theorem countRefusalDraw_host : (countRefusalDraw s).host = s.host := rfl
@[simp] theorem countRefusalDraw_line : (countRefusalDraw s).line = s.line := rfl
@[simp] theorem countRefusalDraw_trace : (countRefusalDraw s).trace = s.trace := rfl
@[simp] theorem countRefusalDraw_binding : (countRefusalDraw s).binding = s.binding := rfl
@[simp] theorem countRefusalDraw_agenda : (countRefusalDraw s).agenda = s.agenda := rfl
@[simp] theorem countRefusalDraw_draws :
    (countRefusalDraw s).draws = if drawsRefusal s then s.draws + 1 else s.draws := rfl

/-! ### acceptTrigger -/

@[simp] theorem acceptTrigger_cfg : (acceptTrigger s).cfg = s.cfg := rfl
@[simp] theorem acceptTrigger_owner : (acceptTrigger s).owner = .transmitting := rfl
@[simp] theorem acceptTrigger_wmode : (acceptTrigger s).wmode = s.wmode := rfl
@[simp] theorem acceptTrigger_result : (acceptTrigger s).result = .ok := rfl
@[simp] theorem acceptTrigger_fault : (acceptTrigger s).fault = s.fault := rfl
@[simp] theorem acceptTrigger_fcode : (acceptTrigger s).fcode = s.fcode := rfl
@[simp] theorem acceptTrigger_cursor : (acceptTrigger s).cursor = s.cursor := rfl
@[simp] theorem acceptTrigger_buf : (acceptTrigger s).buf = s.buf := rfl
@[simp] theorem acceptTrigger_seq :
    (acceptTrigger s).seq = (if s.cfg.startLatency = 0 then
        { s.seq with phase := .bits, slot := 0, tick := 0, word := readSlot s.buf 0, dirty := [] }
      else { s.seq with phase := .lat, cnt := s.cfg.startLatency, dirty := [] }) := rfl
@[simp] theorem acceptTrigger_timer : (acceptTrigger s).timer = s.timer := rfl
@[simp] theorem acceptTrigger_host : (acceptTrigger s).host = s.host := rfl
@[simp] theorem acceptTrigger_line : (acceptTrigger s).line = s.line := rfl
@[simp] theorem acceptTrigger_trace : (acceptTrigger s).trace = s.trace := rfl
@[simp] theorem acceptTrigger_binding : (acceptTrigger s).binding = s.binding := rfl
@[simp] theorem acceptTrigger_agenda : (acceptTrigger s).agenda = s.agenda := rfl
@[simp] theorem acceptTrigger_draws : (acceptTrigger s).draws = s.draws := rfl

/-! ### rejectTrigger -/

@[simp] theorem rejectTrigger_cfg : (rejectTrigger s).cfg = s.cfg := rfl
@[simp] theorem rejectTrigger_owner : (rejectTrigger s).owner = .idle := rfl
@[simp] theorem rejectTrigger_wmode : (rejectTrigger s).wmode = s.wmode := rfl
@[simp] theorem rejectTrigger_result : (rejectTrigger s).result = .triggerError := rfl
@[simp] theorem rejectTrigger_fault : (rejectTrigger s).fault = s.fault := rfl
@[simp] theorem rejectTrigger_fcode : (rejectTrigger s).fcode = s.fcode := rfl
@[simp] theorem rejectTrigger_cursor : (rejectTrigger s).cursor = s.cursor := rfl
@[simp] theorem rejectTrigger_buf : (rejectTrigger s).buf = s.buf := rfl
@[simp] theorem rejectTrigger_seq : (rejectTrigger s).seq = s.seq := rfl
@[simp] theorem rejectTrigger_timer : (rejectTrigger s).timer = s.timer := rfl
@[simp] theorem rejectTrigger_host : (rejectTrigger s).host = s.host := rfl
@[simp] theorem rejectTrigger_line : (rejectTrigger s).line = s.line := rfl
@[simp] theorem rejectTrigger_trace : (rejectTrigger s).trace = s.trace := rfl
@[simp] theorem rejectTrigger_binding : (rejectTrigger s).binding = s.binding := rfl
@[simp] theorem rejectTrigger_agenda : (rejectTrigger s).agenda = s.agenda := rfl
@[simp] theorem rejectTrigger_draws : (rejectTrigger s).draws = s.draws := rfl

/-! ### atSlot -/

@[simp] theorem atSlot_cfg (p : SeqPhase) (i k n : Nat) : (atSlot p i k n s).cfg = s.cfg := rfl
@[simp] theorem atSlot_owner (p : SeqPhase) (i k n : Nat) : (atSlot p i k n s).owner = s.owner := rfl
@[simp] theorem atSlot_wmode (p : SeqPhase) (i k n : Nat) : (atSlot p i k n s).wmode = s.wmode := rfl
@[simp] theorem atSlot_result (p : SeqPhase) (i k n : Nat) : (atSlot p i k n s).result = s.result := rfl
@[simp] theorem atSlot_fault (p : SeqPhase) (i k n : Nat) : (atSlot p i k n s).fault = s.fault := rfl
@[simp] theorem atSlot_fcode (p : SeqPhase) (i k n : Nat) : (atSlot p i k n s).fcode = s.fcode := rfl
@[simp] theorem atSlot_cursor (p : SeqPhase) (i k n : Nat) : (atSlot p i k n s).cursor = s.cursor := rfl
@[simp] theorem atSlot_buf (p : SeqPhase) (i k n : Nat) : (atSlot p i k n s).buf = s.buf := rfl
@[simp] theorem atSlot_seq (p : SeqPhase) (i k n : Nat) :
    (atSlot p i k n s).seq = { s.seq with phase := p, slot := i, tick := k, cnt := n } := rfl
@[simp] theorem atSlot_timer (p : SeqPhase) (i k n : Nat) : (atSlot p i k n s).timer = s.timer := rfl
@[simp] theorem atSlot_host (p : SeqPhase) (i k n : Nat) : (atSlot p i k n s).host = s.host := rfl
@[simp] theorem atSlot_line (p : SeqPhase) (i k n : Nat) : (atSlot p i k n s).line = s.line := rfl
@[simp] theorem atSlot_trace (p : SeqPhase) (i k n : Nat) : (atSlot p i k n s).trace = s.trace := rfl
@[simp] theorem atSlot_binding (p : SeqPhase) (i k n : Nat) : (atSlot p i k n s).binding = s.binding := rfl
@[simp] theorem atSlot_agenda (p : SeqPhase) (i k n : Nat) : (atSlot p i k n s).agenda = s.agenda := rfl
@[simp] theorem atSlot_draws (p : SeqPhase) (i k n : Nat) : (atSlot p i k n s).draws = s.draws := rfl

/-! ### emitBit -/

@[simp] theorem emitBit_cfg : (emitBit s).cfg = s.cfg := rfl
@[simp] theorem emitBit_owner : (emitBit s).owner = s.owner := rfl
@[simp] theorem emitBit_wmode : (emitBit s).wmode = s.wmode := rfl
@[simp] theorem emitBit_result : (emitBit s).result = s.result := rfl
@[simp] theorem emitBit_fault : (emitBit s).fault = s.fault := rfl
@[simp] theorem emitBit_fcode : (emitBit s).fcode = s.fcode := rfl
@[simp] theorem emitBit_cursor : (emitBit s).cursor = s.cursor := rfl
@[simp] theorem emitBit_buf : (emitBit s).buf = s.buf := rfl
@[simp] theorem emitBit_seq : (emitBit s).seq = s.seq := rfl
@[simp] theorem emitBit_timer : (emitBit s).timer = s.timer := rfl
@[simp] theorem emitBit_host : (emitBit s).host = s.host := rfl
@[simp] theorem emitBit_line : (emitBit s).line = waveLevel s.draws s.seq.word s.seq.tick := rfl
@[simp] theorem emitBit_trace : (emitBit s).trace = waveLevel s.draws s.seq.word s.seq.tick :: s.trace := rfl
@[simp] theorem emitBit_binding : (emitBit s).binding = s.binding := rfl
@[simp] theorem emitBit_agenda : (emitBit s).agenda = s.agenda := rfl
@[simp] theorem emitBit_draws : (emitBit s).draws = if canonical s.seq.word then s.draws else s.draws + 1 := rfl

/-! ### endPass -/

@[simp] theorem endPass_cfg : (endPass s).cfg = s.cfg := rfl
@[simp] theorem endPass_owner : (endPass s).owner = s.owner := rfl
@[simp] theorem endPass_wmode : (endPass s).wmode = s.wmode := rfl
@[simp] theorem endPass_result : (endPass s).result = s.result := rfl
@[simp] theorem endPass_fault : (endPass s).fault = s.fault := rfl
@[simp] theorem endPass_fcode : (endPass s).fcode = s.fcode := rfl
@[simp] theorem endPass_cursor : (endPass s).cursor = s.cursor := rfl
@[simp] theorem endPass_buf : (endPass s).buf = s.buf := rfl
@[simp] theorem endPass_seq : (endPass s).seq = { s.seq with phase := .off, cnt := 0, dirty := [] } := rfl
@[simp] theorem endPass_timer : (endPass s).timer = s.timer := rfl
@[simp] theorem endPass_host : (endPass s).host = s.host := rfl
@[simp] theorem endPass_line : (endPass s).line = s.line := rfl
@[simp] theorem endPass_trace : (endPass s).trace = s.trace := rfl
@[simp] theorem endPass_binding : (endPass s).binding = s.binding := rfl
@[simp] theorem endPass_agenda : (endPass s).agenda = s.agenda := rfl
@[simp] theorem endPass_draws : (endPass s).draws = s.draws := rfl

/-! ### startWait -/

@[simp] theorem startWait_cfg (m : WaitMode) : (startWait m s).cfg = s.cfg := rfl
@[simp] theorem startWait_owner (m : WaitMode) : (startWait m s).owner = .waiting := rfl
@[simp] theorem startWait_wmode (m : WaitMode) : (startWait m s).wmode = m := rfl
@[simp] theorem startWait_result (m : WaitMode) : (startWait m s).result = s.result := rfl
@[simp] theorem startWait_fault (m : WaitMode) : (startWait m s).fault = s.fault := rfl
@[simp] theorem startWait_fcode (m : WaitMode) : (startWait m s).fcode = s.fcode := rfl
@[simp] theorem startWait_cursor (m : WaitMode) : (startWait m s).cursor = s.cursor := rfl
@[simp] theorem startWait_buf (m : WaitMode) : (startWait m s).buf = s.buf := rfl
@[simp] theorem startWait_seq (m : WaitMode) : (startWait m s).seq = s.seq := rfl
@[simp] theorem startWait_timer (m : WaitMode) :
    (startWait m s).timer = { s.timer with remain := delayTicks s.cfg } := rfl
@[simp] theorem startWait_host (m : WaitMode) : (startWait m s).host = s.host := rfl
@[simp] theorem startWait_line (m : WaitMode) : (startWait m s).line = s.line := rfl
@[simp] theorem startWait_trace (m : WaitMode) : (startWait m s).trace = s.trace := rfl
@[simp] theorem startWait_binding (m : WaitMode) : (startWait m s).binding = s.binding := rfl
@[simp] theorem startWait_agenda (m : WaitMode) : (startWait m s).agenda = s.agenda := rfl
@[simp] theorem startWait_draws (m : WaitMode) : (startWait m s).draws = s.draws := rfl

/-! ### blockHost -/

@[simp] theorem blockHost_cfg : (blockHost s).cfg = s.cfg := rfl
@[simp] theorem blockHost_owner : (blockHost s).owner = s.owner := rfl
@[simp] theorem blockHost_wmode : (blockHost s).wmode = s.wmode := rfl
@[simp] theorem blockHost_result : (blockHost s).result = s.result := rfl
@[simp] theorem blockHost_fault : (blockHost s).fault = s.fault := rfl
@[simp] theorem blockHost_fcode : (blockHost s).fcode = s.fcode := rfl
@[simp] theorem blockHost_cursor : (blockHost s).cursor = s.cursor := rfl
@[simp] theorem blockHost_buf : (blockHost s).buf = s.buf := rfl
@[simp] theorem blockHost_seq : (blockHost s).seq = s.seq := rfl
@[simp] theorem blockHost_timer : (blockHost s).timer = s.timer := rfl
@[simp] theorem blockHost_host : (blockHost s).host = { s.host with blocked := true } := rfl
@[simp] theorem blockHost_line : (blockHost s).line = s.line := rfl
@[simp] theorem blockHost_trace : (blockHost s).trace = s.trace := rfl
@[simp] theorem blockHost_binding : (blockHost s).binding = s.binding := rfl
@[simp] theorem blockHost_agenda : (blockHost s).agenda = s.agenda := rfl
@[simp] theorem blockHost_draws : (blockHost s).draws = s.draws := rfl

/-! ### suspendTask -/

@[simp] theorem suspendTask_cfg : (suspendTask s).cfg = s.cfg := rfl
@[simp] theorem suspendTask_owner : (suspendTask s).owner = s.owner := rfl
@[simp] theorem suspendTask_wmode : (suspendTask s).wmode = s.wmode := rfl
@[simp] theorem suspendTask_result : (suspendTask s).result = s.result := rfl
@[simp] theorem suspendTask_fault : (suspendTask s).fault = s.fault := rfl
@[simp] theorem suspendTask_fcode : (suspendTask s).fcode = s.fcode := rfl
@[simp] theorem suspendTask_cursor : (suspendTask s).cursor = s.cursor := rfl
@[simp] theorem suspendTask_buf : (suspendTask s).buf = s.buf := rfl
@[simp] theorem suspendTask_seq : (suspendTask s).seq = s.seq := rfl
@[simp] theorem suspendTask_timer : (suspendTask s).timer = s.timer := rfl
@[simp] theorem suspendTask_host : (suspendTask s).host = { s.host with suspended := some s.host.task } := rfl
@[simp] theorem suspendTask_line : (suspendTask s).line = s.line := rfl
@[simp] theorem suspendTask_trace : (suspendTask s).trace = s.trace := rfl
@[simp] theorem suspendTask_binding : (suspendTask s).binding = s.binding := rfl
@[simp] theorem suspendTask_agenda : (suspendTask s).agenda = s.agenda := rfl
@[simp] theorem suspendTask_draws : (suspendTask s).draws = s.draws := rfl

/-! ### cancelWait -/

@[simp] theorem cancelWait_cfg : (cancelWait s).cfg = s.cfg := rfl
@[simp] theorem cancelWait_owner : (cancelWait s).owner = .idle := rfl
@[simp] theorem cancelWait_wmode : (cancelWait s).wmode = .blocking := rfl
@[simp] theorem cancelWait_result : (cancelWait s).result = s.result := rfl
@[simp] theorem cancelWait_fault : (cancelWait s).fault = s.fault := rfl
@[simp] theorem cancelWait_fcode : (cancelWait s).fcode = s.fcode := rfl
@[simp] theorem cancelWait_cursor : (cancelWait s).cursor = s.cursor := rfl
@[simp] theorem cancelWait_buf : (cancelWait s).buf = s.buf := rfl
@[simp] theorem cancelWait_seq : (cancelWait s).seq = s.seq := rfl
@[simp] theorem cancelWait_timer : (cancelWait s).timer = { s.timer with remain := 0 } := rfl
@[simp] theorem cancelWait_host : (cancelWait s).host = { s.host with suspended := none } := rfl
@[simp] theorem cancelWait_line : (cancelWait s).line = s.line := rfl
@[simp] theorem cancelWait_trace : (cancelWait s).trace = s.trace := rfl
@[simp] theorem cancelWait_binding : (cancelWait s).binding = s.binding := rfl
@[simp] theorem cancelWait_agenda : (cancelWait s).agenda = dropTask s.host.suspended s.agenda := rfl
@[simp] theorem cancelWait_draws : (cancelWait s).draws = s.draws := rfl

/-! ### expire -/

@[simp] theorem expire_cfg : (expire s).cfg = s.cfg := rfl
@[simp] theorem expire_owner : (expire s).owner = .idle := rfl
@[simp] theorem expire_wmode : (expire s).wmode = .blocking := rfl
@[simp] theorem expire_result : (expire s).result = s.result := rfl
@[simp] theorem expire_fault : (expire s).fault = s.fault := rfl
@[simp] theorem expire_fcode : (expire s).fcode = s.fcode := rfl
@[simp] theorem expire_cursor : (expire s).cursor = s.cursor := rfl
@[simp] theorem expire_buf : (expire s).buf = s.buf := rfl
@[simp] theorem expire_seq : (expire s).seq = s.seq := rfl
@[simp] theorem expire_timer : (expire s).timer = { s.timer with remain := 0 } := rfl
@[simp] theorem expire_host :
    (expire s).host = { s.host with blocked := false, suspended := none, elapsed := noteElapsed s.host } := rfl
@[simp] theorem expire_line : (expire s).line = s.line := rfl
@[simp] theorem expire_trace : (expire s).trace = s.trace := rfl
@[simp] theorem expire_binding : (expire s).binding = s.binding := rfl
@[simp] theorem expire_agenda : (expire s).agenda = s.agenda := rfl
@[simp] theorem expire_draws : (expire s).draws = s.draws := rfl

/-! ### failTimer -/

@[simp] theorem failTimer_cfg : (failTimer s).cfg = s.cfg := rfl
@[simp] theorem failTimer_owner : (failTimer s).owner = s.owner := rfl
@[simp] theorem failTimer_wmode : (failTimer s).wmode = s.wmode := rfl
@[simp] theorem failTimer_result : (failTimer s).result = s.result := rfl
@[simp] theorem failTimer_fault : (failTimer s).fault = true := rfl
@[simp] theorem failTimer_fcode : (failTimer s).fcode = if s.fault then s.fcode else 2#4 := rfl
@[simp] theorem failTimer_cursor : (failTimer s).cursor = s.cursor := rfl
@[simp] theorem failTimer_buf : (failTimer s).buf = s.buf := rfl
@[simp] theorem failTimer_seq : (failTimer s).seq = s.seq := rfl
@[simp] theorem failTimer_timer : (failTimer s).timer = { s.timer with failed := true } := rfl
@[simp] theorem failTimer_host : (failTimer s).host = s.host := rfl
@[simp] theorem failTimer_line : (failTimer s).line = s.line := rfl
@[simp] theorem failTimer_trace : (failTimer s).trace = s.trace := rfl
@[simp] theorem failTimer_binding : (failTimer s).binding = s.binding := rfl
@[simp] theorem failTimer_agenda : (failTimer s).agenda = s.agenda := rfl
@[simp] theorem failTimer_draws : (failTimer s).draws = s.draws := rfl

/-! ### countTimerDraw -/

@[simp] theorem countTimerDraw_cfg : (countTimerDraw s).cfg = s.cfg := rfl
@[simp] theorem countTimerDraw_owner : (countTimerDraw s).owner = s.owner := rfl
@[simp] theorem countTimerDraw_wmode : (countTimerDraw s).wmode = s.wmode := rfl
@[simp] theorem countTimerDraw_result : (countTimerDraw s).result = s.result := rfl
@[simp] theorem countTimerDraw_fault : (countTimerDraw s).fault = s.fault := rfl
@[simp] theorem countTimerDraw_fcode : (countTimerDraw s).fcode = s.fcode := rfl
@[simp] theorem countTimerDraw_cursor : (countTimerDraw s).cursor = s.cursor := rfl
@[simp] theorem countTimerDraw_buf : (countTimerDraw s).buf = s.buf := rfl
@[simp] theorem countTimerDraw_seq : (countTimerDraw s).seq = s.seq := rfl
@[simp] theorem countTimerDraw_timer : (countTimerDraw s).timer = s.timer := rfl
@[simp] theorem countTimerDraw_host : (countTimerDraw s).host = s.host := rfl
@[simp] theorem countTimerDraw_line : (countTimerDraw s).line = s.line := rfl
@[simp] theorem countTimerDraw_trace : (countTimerDraw s).trace = s.trace := rfl
@[simp] theorem countTimerDraw_binding : (countTimerDraw s).binding = s.binding := rfl
@[simp] theorem countTimerDraw_agenda : (countTimerDraw s).agenda = s.agenda := rfl
@[simp] theorem countTimerDraw_draws :
    (countTimerDraw s).draws = if s.cfg.timerMayFail then s.draws + 1 else s.draws := rfl

/-! ### recordResult -/

@[simp] theorem recordResult_cfg (r : WriteResult) : (recordResult r s).cfg = s.cfg := rfl
@[simp] theorem recordResult_owner (r : WriteResult) : (recordResult r s).owner = s.owner := rfl
@[simp] theorem recordResult_wmode (r : WriteResult) : (recordResult r s).wmode = s.wmode := rfl
@[simp] theorem recordResult_result (r : WriteResult) : (recordResult r s).result = s.result := rfl
@[simp] theorem recordResult_fault (r : WriteResult) : (recordResult r s).fault = s.fault := rfl
@[simp] theorem recordResult_fcode (r : WriteResult) : (recordResult r s).fcode = s.fcode := rfl
@[simp] theorem recordResult_cursor (r : WriteResult) : (recordResult r s).cursor = s.cursor := rfl
@[simp] theorem recordResult_buf (r : WriteResult) : (recordResult r s).buf = s.buf := rfl
@[simp] theorem recordResult_seq (r : WriteResult) : (recordResult r s).seq = s.seq := rfl
@[simp] theorem recordResult_timer (r : WriteResult) : (recordResult r s).timer = s.timer := rfl
@[simp] theorem recordResult_host (r : WriteResult) :
    (recordResult r s).host =
      { s.host with results := (s.host.task, r) :: s.host.results, elapsed := otherTasks s.host.task s.host.elapsed } := rfl
@[simp] theorem recordResult_line (r : WriteResult) : (recordResult r s).line = s.line := rfl
@[simp] theorem recordResult_trace (r : WriteResult) : (recordResult r s).trace = s.trace := rfl
@[simp] theorem recordResult_binding (r : WriteResult) : (recordResult r s).binding = s.binding := rfl
@[simp] theorem recordResult_agenda (r : WriteResult) : (recordResult r s).agenda = s.agenda := rfl
@[simp] theorem recordResult_draws (r : WriteResult) : (recordResult r s).draws = s.draws := rfl

/-! ### forgetElapsed -/

@[simp] theorem forgetElapsed_cfg : (forgetElapsed s).cfg = s.cfg := rfl
@[simp] theorem forgetElapsed_owner : (forgetElapsed s).owner = s.owner := rfl
@[simp] theorem forgetElapsed_wmode : (forgetElapsed s).wmode = s.wmode := rfl
@[simp] theorem forgetElapsed_result : (forgetElapsed s).result = s.result := rfl
@[simp] theorem forgetElapsed_fault : (forgetElapsed s).fault = s.fault := rfl
@[simp] theorem forgetElapsed_fcode : (forgetElapsed s).fcode = s.fcode := rfl
@[simp] theorem forgetElapsed_cursor : (forgetElapsed s).cursor = s.cursor := rfl
@[simp] theorem forgetElapsed_buf : (forgetElapsed s).buf = s.buf := rfl
@[simp] theorem forgetElapsed_seq : (forgetElapsed s).seq = s.seq := rfl
@[simp] theorem forgetElapsed_timer : (forgetElapsed s).timer = s.timer := rfl
@[simp] theorem forgetElapsed_host :
    (forgetElapsed s).host = { s.host with elapsed := otherTasks s.host.task s.host.elapsed } := rfl
@[simp] theorem forgetElapsed_line : (forgetElapsed s).line = s.line := rfl
@[simp] theorem forgetElapsed_trace : (forgetElapsed s).trace = s.trace := rfl
@[simp] theorem forgetElapsed_binding : (forgetElapsed s).binding = s.binding := rfl
@[simp] theorem forgetElapsed_agenda : (forgetElapsed s).agenda = s.agenda := rfl
@[simp] theorem forgetElapsed_draws : (forgetElapsed s).draws = s.draws := rfl

/-! ### hostTurn -/

@[simp] theorem hostTurn_cfg (t : Nat) (rest : List Event) : (hostTurn t rest s).cfg = s.cfg := rfl
@[simp] theorem hostTurn_owner (t : Nat) (rest : List Event) : (hostTurn t rest s).owner = s.owner := rfl
@[simp] theorem hostTurn_wmode (t : Nat) (rest : List Event) : (hostTurn t rest s).wmode = s.wmode := rfl
@[simp] theorem hostTurn_result (t : Nat) (rest : List Event) : (hostTurn t rest s).result = s.result := rfl
@[simp] theorem hostTurn_fault (t : Nat) (rest : List Event) : (hostTurn t rest s).fault = s.fault := rfl
@[simp] theorem hostTurn_fcode (t : Nat) (rest : List Event) : (hostTurn t rest s).fcode = s.fcode := rfl
@[simp] theorem hostTurn_cursor (t : Nat) (rest : List Event) : (hostTurn t rest s).cursor = s.cursor := rfl
@[simp] theorem hostTurn_buf (t : Nat) (rest : List Event) : (hostTurn t rest s).buf = s.buf := rfl
@[simp] theorem hostTurn_seq (t : Nat) (rest : List Event) : (hostTurn t rest s).seq = s.seq := rfl
@[simp] theorem hostTurn_timer (t : Nat) (rest : List Event) : (hostTurn t rest s).timer = s.timer := rfl
@[simp] theorem hostTurn_host (t : Nat) (rest : List Event) :
    (hostTurn t rest s).host = { s.host with task := t, reply := .none } := rfl
@[simp] theorem hostTurn_line (t : Nat) (rest : List Event) : (hostTurn t rest s).line = s.line := rfl
@[simp] theorem hostTurn_trace (t : Nat) (rest : List Event) : (hostTurn t rest s).trace = s.trace := rfl
@[simp] theorem hostTurn_binding (t : Nat) (rest : List Event) : (hostTurn t rest s).binding = s.binding := rfl
@[simp] theorem hostTurn_agenda (t : Nat) (rest : List Event) : (hostTurn t rest s).agenda = rest := rfl
@[simp] theorem hostTurn_draws (t : Nat) (rest : List Event) : (hostTurn t rest s).draws = s.draws := rfl

end Sys2Proof.Machine
end

