-- ==== Sys2Proof/Laws/Memory.lean ====
section
/-! SUPPORT. The laws of the buffer's memory and of the dirty slots: read after write, and the canonical forms. -/

namespace Sys2Proof.Machine

/-! ### Bytes -/

theorem lookup_put (m : List Host.Cell) (a x : Nat) (v : Byte) :
    Mem.lookup (Mem.put m a v) x = if x = a then some v else Mem.lookup m x := by
  induction m with
  | nil => simp [Mem.put, Mem.lookup]
  | cons c m ih =>
    obtain ⟨b, u⟩ := c
    by_cases h1 : a < b
    · simp [Mem.put, h1, Mem.lookup]
    · by_cases h2 : a = b
      · subst h2
        by_cases hx : x = a <;> simp [Mem.put, Mem.lookup, hx]
      · by_cases hx : x = b
        · simp [Mem.put, h1, h2, Mem.lookup, hx, Ne.symm h2]
        · simp [Mem.put, h1, h2, Mem.lookup, hx, ih]

@[simp] theorem readByte_writeByte_same (m : FrameBuffer) (a : Nat) (v : Byte) :
    readByte (writeByte m a v) a = v := by
  simp [readByte, writeByte, lookup_put]

theorem readByte_writeByte_other (m : FrameBuffer) {a x : Nat} (v : Byte) (h : x ≠ a) :
    readByte (writeByte m a v) x = readByte m x := by
  simp [readByte, writeByte, lookup_put, h]

theorem risesFrom_mono {lo lo' : Nat} (h : lo ≤ lo') : ∀ m : List Host.Cell,
    Mem.risesFrom lo' m = true → Mem.risesFrom lo m = true
  | [], _ => rfl
  | (a, b) :: m, hm => by
    simp only [Mem.risesFrom, Bool.and_eq_true, decide_eq_true_eq] at hm ⊢
    exact ⟨by omega, hm.2⟩

theorem risesFrom_put (m : List Host.Cell) (lo a : Nat) (v : Byte) (hlo : lo ≤ a)
    (h : Mem.risesFrom lo m = true) : Mem.risesFrom lo (Mem.put m a v) = true := by
  induction m generalizing lo with
  | nil => simp [Mem.put, Mem.risesFrom, hlo]
  | cons c m ih =>
    obtain ⟨b, u⟩ := c
    simp only [Mem.risesFrom, Bool.and_eq_true, decide_eq_true_eq] at h
    by_cases h1 : a < b
    · simp [Mem.put, h1, Mem.risesFrom, hlo, h.2]
    · by_cases h2 : a = b
      · subst h2
        simp [Mem.put, Mem.risesFrom, h]
      · have := ih (b + 1) (by omega) h.2
        simp [Mem.put, h1, h2, Mem.risesFrom, h.1, this]

/-- A write keeps the canonical form. -/
theorem wf_put {m : List Host.Cell} (a : Nat) (v : Byte) (h : Mem.wf m = true) :
    Mem.wf (Mem.put m a v) = true :=
  risesFrom_put m 0 a v (Nat.zero_le a) h

theorem mem_put (m : List Host.Cell) (a : Nat) (v : Byte) (c : Host.Cell) :
    c ∈ Mem.put m a v → c = (a, v) ∨ c ∈ m := by
  induction m with
  | nil => simp [Mem.put]
  | cons d m ih =>
    obtain ⟨b, u⟩ := d
    by_cases h1 : a < b
    · simp [Mem.put, h1]
    · by_cases h2 : a = b
      · subst h2
        simp only [Mem.put, Nat.lt_irrefl, if_false, if_true, List.mem_cons]
        tauto
      · simp only [Mem.put, h1, h2, if_false, List.mem_cons]
        tauto

/-! ### Slots -/

theorem wf_writeSlot {m : FrameBuffer} (i : Nat) (w : Code) (h : Mem.wf m.cells = true) :
    Mem.wf (writeSlot m i w).cells = true :=
  wf_put _ _ (wf_put _ _ h)

theorem mem_writeSlot {m : FrameBuffer} {i : Nat} {w : Code} {c : Host.Cell}
    (h : c ∈ (writeSlot m i w).cells) : c.1 = 2 * i ∨ c.1 = 2 * i + 1 ∨ c ∈ m.cells := by
  rcases mem_put _ _ _ _ h with rfl | h
  · exact .inr (.inl rfl)
  · rcases mem_put _ _ _ _ h with rfl | h
    · exact .inl rfl
    · exact .inr (.inr h)

theorem readByte_writeSlot_other (m : FrameBuffer) {i a : Nat} (w : Code) (h0 : a ≠ 2 * i)
    (h1 : a ≠ 2 * i + 1) : readByte (writeSlot m i w) a = readByte m a := by
  rw [writeSlot, readByte_writeByte_other _ _ h1, readByte_writeByte_other _ _ h0]

theorem code_halves (w : Code) : w.extractLsb' 8 8 ++ w.extractLsb' 0 8 = w := by
  apply BitVec.eq_of_getLsbD_eq
  intro i hi
  simp only [BitVec.getLsbD_append, BitVec.getLsbD_extractLsb']
  by_cases h : i < 8
  · simp [h]
  · have h8 : i - 8 < 8 := by omega
    have : 8 + (i - 8) = i := by omega
    simp [h, h8, this]

@[simp] theorem readSlot_writeSlot_same (m : FrameBuffer) (i : Nat) (w : Code) :
    readSlot (writeSlot m i w) i = w := by
  have h : (2 * i : Nat) ≠ 2 * i + 1 := by omega
  rw [readSlot, writeSlot, readByte_writeByte_same, readByte_writeByte_other _ _ h, readByte_writeByte_same, code_halves]

theorem readSlot_writeSlot_other (m : FrameBuffer) {i j : Nat} (w : Code) (h : j ≠ i) :
    readSlot (writeSlot m i w) j = readSlot m j := by
  rw [readSlot, readByte_writeSlot_other _ _ (by omega) (by omega),
    readByte_writeSlot_other _ _ (by omega) (by omega), readSlot]

/-- Slots are read through their bytes. -/
theorem readSlot_congr {m m' : FrameBuffer} {i : Nat} (h0 : readByte m (2 * i) = readByte m' (2 * i))
    (h1 : readByte m (2 * i + 1) = readByte m' (2 * i + 1)) : readSlot m i = readSlot m' i := by
  rw [readSlot, readSlot, h0, h1]

/-- A slot that nothing has written reads as INIT_BUFFER's value (R32). -/
theorem readSlot_unwritten (k i : Nat) : readSlot { powerOn := k, cells := [] } i = Config.initBuffer k i := by
  have h0 : (2 * i) / 2 = i := by omega
  have h1 : (2 * i + 1) / 2 = i := by omega
  have h2 : (2 * i) % 2 = 0 := by omega
  have h3 : (2 * i + 1) % 2 = 1 := by omega
  simp only [readSlot, readByte, Mem.lookup, Option.getD_none, initByte, h0, h1, h2, h3]
  exact code_halves _

/-! ### Dirty slots -/

@[simp] theorem mem_insertSlot (i j : Nat) (d : List Nat) : j ∈ insertSlot i d ↔ j = i ∨ j ∈ d := by
  induction d with
  | nil => simp [insertSlot]
  | cons k d ih =>
    by_cases h1 : i < k
    · simp [insertSlot, h1]
    · by_cases h2 : i = k
      · subst h2; simp [insertSlot]
      · simp only [insertSlot, h1, h2, if_false, List.mem_cons, ih]
        tauto

theorem slotsRise_insertSlot (i : Nat) (d : List Nat) (h : slotsRise d = true) :
    slotsRise (insertSlot i d) = true := by
  simp only [slotsRise, decide_eq_true_eq] at h ⊢
  induction d with
  | nil => simp [insertSlot]
  | cons k d ih =>
    rw [List.pairwise_cons] at h
    by_cases h1 : i < k
    · simp only [insertSlot, h1, if_true, List.pairwise_cons, List.mem_cons]
      refine ⟨?_, h⟩
      rintro a (rfl | ha)
      · exact h1
      · exact h1.trans (h.1 a ha)
    · by_cases h2 : i = k
      · subst h2
        simpa [insertSlot] using h
      · simp only [insertSlot, h1, h2, if_false, List.pairwise_cons, mem_insertSlot]
        refine ⟨?_, ih h.2⟩
        rintro a (rfl | ha)
        · omega
        · exact h.1 a ha

/-- What a slot's store makes dirty (R128). -/
theorem mem_storeSlot_dirty (i j : Nat) (w : Code) (s : State) :
    j ∈ (storeSlot i w s).seq.dirty ↔ j ∈ s.seq.dirty ∨ (j = i ∧ unlatched s.seq i = true) := by
  by_cases h : unlatched s.seq i = true <;> simp [h, or_comm]

end Sys2Proof.Machine
end

