-- ==== Sys2Proof/Laws/Encoder.lean ====
section
/-! SUPPORT. What writing a chunk of slots does (R112): one lemma for each thing it changes, one for all it leaves. -/

namespace Sys2Proof.Machine

/-- Storing slots changes the buffer and the dirty set only. -/
theorem storeChunkFrom_frame (c : Nat) (r g b : Byte) (n : Nat) (s : State) :
    storeChunkFrom c r g b n s = { s with
      buf := (storeChunkFrom c r g b n s).buf
      seq := { s.seq with dirty := (storeChunkFrom c r g b n s).seq.dirty } } := by
  induction n generalizing s with
  | zero => rfl
  | succ n ih => rw [storeChunkFrom, ih]; simp [storeSlot]

/-- A slot store leaves what decides whether a slot is latched. -/
@[simp] theorem unlatched_storeSlot (i j : Nat) (w : Code) (s : State) :
    unlatched (storeSlot i w s).seq j = unlatched s.seq j := rfl

/-- Bytes outside the slots still to be written are left alone. -/
theorem readByte_storeChunkFrom_outside (c : Nat) (r g b : Byte) (n : Nat) (hn : n ≤ 24) (s : State) (a : Nat)
    (h : a < 2 * (24 * c + (24 - n)) ∨ 48 * c + 48 ≤ a) :
    readByte (storeChunkFrom c r g b n s).buf a = readByte s.buf a := by
  induction n generalizing s with
  | zero => rfl
  | succ n ih =>
    rw [storeChunkFrom, ih (by omega) _ (by omega), storeSlot_buf,
      readByte_writeSlot_other _ _ (by omega) (by omega)]

/-- The slots written hold the colour's codes. -/
theorem readSlot_storeChunkFrom (c : Nat) (r g b : Byte) (n : Nat) (hn : n ≤ 24) (s : State) (k : Nat)
    (h0 : 24 - n ≤ k) (h1 : k < 24) :
    readSlot (storeChunkFrom c r g b n s).buf (24 * c + k) = chunkCode r g b k := by
  induction n generalizing s with
  | zero => omega
  | succ n ih =>
    rw [storeChunkFrom]
    by_cases hk : 24 - n ≤ k
    · exact ih (by omega) _ hk
    · have hk : k = 23 - n := by omega
      subst hk
      rw [readSlot_congr (readByte_storeChunkFrom_outside _ _ _ _ _ (by omega) _ _ (by omega))
        (readByte_storeChunkFrom_outside _ _ _ _ _ (by omega) _ _ (by omega))]
      simp

/-- The slots written that the running pass has not latched become dirty (R128). -/
theorem mem_storeChunkFrom_dirty (c : Nat) (r g b : Byte) (n : Nat) (hn : n ≤ 24) (s : State) (i : Nat) :
    i ∈ (storeChunkFrom c r g b n s).seq.dirty ↔ i ∈ s.seq.dirty ∨
      (24 * c + (24 - n) ≤ i ∧ i < 24 * c + 24 ∧ unlatched s.seq i = true) := by
  induction n generalizing s with
  | zero => simp only [storeChunkFrom]; constructor
            · exact .inl
            · rintro (h | ⟨h, h', -⟩)
              · exact h
              · omega
  | succ n ih =>
    rw [storeChunkFrom, ih (by omega), mem_storeSlot_dirty, unlatched_storeSlot]
    constructor
    · rintro ((h | ⟨rfl, h⟩) | ⟨h, h', h''⟩)
      · exact .inl h
      · exact .inr ⟨by omega, by omega, h⟩
      · exact .inr ⟨by omega, h', h''⟩
    · rintro (h | ⟨h, h', h''⟩)
      · exact .inl (.inl h)
      · by_cases hi : i = 24 * c + (23 - n)
        · subst hi; exact .inl (.inr ⟨rfl, h''⟩)
        · exact .inr ⟨by omega, h', h''⟩

/-- Writing a chunk keeps the memory's canonical form. -/
theorem wf_storeChunkFrom (c : Nat) (r g b : Byte) (n : Nat) (s : State) (h : Mem.wf s.buf.cells = true) :
    Mem.wf (storeChunkFrom c r g b n s).buf.cells = true := by
  induction n generalizing s with
  | zero => exact h
  | succ n ih => exact ih _ (wf_writeSlot _ _ h)

/-- Writing a chunk lists no address past it. -/
theorem mem_storeChunkFrom_buf (c : Nat) (r g b : Byte) (n : Nat) (s : State) (x : Host.Cell)
    (h : x ∈ (storeChunkFrom c r g b n s).buf.cells) : x.1 < 48 * c + 48 ∨ x ∈ s.buf.cells := by
  induction n generalizing s with
  | zero => exact .inr h
  | succ n ih =>
    rcases ih _ h with h | h
    · exact .inl h
    · rcases mem_writeSlot h with h | h | h
      · exact .inl (by omega)
      · exact .inl (by omega)
      · exact .inr h

/-- Writing a chunk keeps the dirty set a strictly rising list. -/
theorem slotsRise_storeChunkFrom (c : Nat) (r g b : Byte) (n : Nat) (s : State)
    (h : slotsRise s.seq.dirty = true) : slotsRise (storeChunkFrom c r g b n s).seq.dirty = true := by
  induction n generalizing s with
  | zero => exact h
  | succ n ih =>
    refine ih _ ?_
    rw [storeSlot_seq]
    show slotsRise (if _ then _ else _) = true
    split
    · exact slotsRise_insertSlot _ _ h
    · exact h

theorem encodeColour_buf (r g b : Byte) (s : State) :
    (encodeColour r g b s).buf = (storeChunkFrom s.cursor r g b 24 s).buf := by
  rw [encodeColour, advanceCursor_buf, storeChunk]

theorem encodeColour_dirty (r g b : Byte) (s : State) :
    (encodeColour r g b s).seq.dirty = (storeChunkFrom s.cursor r g b 24 s).seq.dirty := by
  rw [encodeColour, advanceCursor_seq, storeChunk]

theorem storeChunkFrom_powerOn (c : Nat) (r g b : Byte) (n : Nat) (s : State) :
    (storeChunkFrom c r g b n s).buf.powerOn = s.buf.powerOn := by
  induction n generalizing s with
  | zero => rfl
  | succ n ih => rw [storeChunkFrom, ih]; rfl

/-- A write to the buffer is no power-on. -/
@[simp] theorem encodeColour_powerOn (r g b : Byte) (s : State) :
    (encodeColour r g b s).buf.powerOn = s.buf.powerOn := by
  rw [encodeColour_buf, storeChunkFrom_powerOn]

/-- PUSH's effect changes CURSOR, the buffer and the dirty set only. -/
theorem encodeColour_frame (r g b : Byte) (s : State) :
    encodeColour r g b s = { s with
      cursor := s.cursor + 1
      buf := (encodeColour r g b s).buf
      seq := { s.seq with dirty := (encodeColour r g b s).seq.dirty } } := by
  rw [encodeColour_buf, encodeColour_dirty]
  have hf := storeChunkFrom_frame s.cursor r g b 24 s
  rw [encodeColour, storeChunk]
  generalize storeChunkFrom s.cursor r g b 24 s = u at hf ⊢
  rw [hf]
  rfl

/-- All that PUSH's effect on the buffer and the dirty set does, in one lemma (R112). -/
theorem encodeColour_spec (r g b : Byte) (s : State) :
    (∀ k, k < 24 → readSlot (encodeColour r g b s).buf (24 * s.cursor + k) = chunkCode r g b k)
      ∧ (∀ a, a < 48 * s.cursor ∨ 48 * s.cursor + 48 ≤ a →
          readByte (encodeColour r g b s).buf a = readByte s.buf a)
      ∧ (∀ i, i ∈ (encodeColour r g b s).seq.dirty ↔ i ∈ s.seq.dirty ∨
          (24 * s.cursor ≤ i ∧ i < 24 * s.cursor + 24 ∧ unlatched s.seq i = true)) := by
  rw [encodeColour_buf, encodeColour_dirty]
  have h24 : (24 : Nat) ≤ 24 := le_refl _
  refine ⟨fun k hk => ?_, fun a ha => ?_, fun i => ?_⟩
  · exact readSlot_storeChunkFrom _ _ _ _ 24 h24 _ k (by omega) hk
  · exact readByte_storeChunkFrom_outside _ _ _ _ 24 h24 _ a (by omega)
  · have := mem_storeChunkFrom_dirty s.cursor r g b 24 h24 s i
    simpa using this

end Sys2Proof.Machine
end

