-- ==== Sys2Proof/Laws/Step.lean ====
section
/-! SUPPORT. Everything a step can do, said once: the effects of a command, of a host step, of a tick, and of a step. -/

namespace Sys2Proof.Machine

/-! ### The waits that have lasted their delay -/

@[simp] theorem mem_otherTasks (t x : Nat) (l : List Nat) : x ∈ otherTasks t l ↔ x ∈ l ∧ x ≠ t := by
  simp [otherTasks]

/-- An expiry notes the waiting task, and forgets none (R147). -/
@[simp] theorem mem_noteElapsed (h : HostAgent) (x : Nat) :
    x ∈ noteElapsed h ↔ waitingTask h = some x ∨ x ∈ h.elapsed := by
  unfold noteElapsed
  cases waitingTask h <;> simp [eq_comm]

/-! ### Commands -/

/-- The effects a command can have in a state that may run it (R150), faults apart. -/
inductive CommandEffect (u : State) : Instr → State → Prop
  | init (h : u.owner = .uninit) (hc : configOk u.cfg = true) : CommandEffect u .init (construct u)
  | beginFrame (h : u.owner = .idle) : CommandEffect u .beginFrame (startFrame u)
  | push (r g b : Byte) (h : u.owner = .encoding) (hc : u.cursor ≠ u.cfg.ledCount) :
      CommandEffect u (.push r g b) (encodeColour r g b u)
  | accept (h : u.owner = .encoding) (hr : refuses u = false) :
      CommandEffect u .trig (acceptTrigger (countRefusalDraw u))
  | reject (h : u.owner = .encoding) (hr : refuses u = true) :
      CommandEffect u .trig (rejectTrigger (countRefusalDraw u))
  | waitb (h : u.owner = .transmitting) :
      CommandEffect u .waitb (blockHost (startWait .blocking u))
  | waits (h : u.owner = .transmitting) :
      CommandEffect u .waits (suspendTask (startWait .suspending u))
  | cancel (h : u.owner = .waiting) (hw : u.wmode = .suspending) : CommandEffect u .cancel (cancelWait u)

/-- Every command answers a next state: nothing if FAULT = 1 (R182), a recorded fault, or its effect. -/
theorem exec_cases {i : Instr} {s : State} {o : Host.Outcome State Fault Refusal} (h : exec i s = o) :
    (s.fault = true ∧ o = .next s)
      ∨ (s.fault = false ∧ ∃ c, o = .next (raiseFault c s))
      ∨ (s.fault = false ∧ ∃ t, o = .next t ∧ CommandEffect s i t) := by
  subst h
  by_cases hf : s.fault = true
  · left
    refine ⟨hf, ?_⟩
    cases i <;> simp [exec, execInit, execBegin, execPush, execTrig, execWaitb, execWaits, execCancel, initEffect,
      beginEffect, pushEffect, trigEffect, waitbEffect, waitsEffect, cancelEffect, hf]
  · right
    have hf' : s.fault = false := by simpa using hf
    cases i with
    | init =>
      simp only [exec, execInit, initEffect, hf', Bool.false_eq_true, if_false]
      split
      · exact .inl ⟨trivial, _, rfl⟩
      · rename_i h; split
        · rename_i hc; exact .inr ⟨trivial, _, rfl, .init (by simpa using h) hc⟩
        · exact .inl ⟨trivial, _, rfl⟩
    | beginFrame =>
      simp only [exec, execBegin, beginEffect, hf', Bool.false_eq_true, if_false]
      split
      · exact .inl ⟨trivial, _, rfl⟩
      · rename_i h; exact .inr ⟨trivial, _, rfl, .beginFrame (by simpa using h)⟩
    | push r g b =>
      simp only [exec, execPush, pushEffect, hf', Bool.false_eq_true, if_false]
      split
      · exact .inl ⟨trivial, _, rfl⟩
      · rename_i h; split
        · exact .inl ⟨trivial, _, rfl⟩
        · rename_i hc; exact .inr ⟨trivial, _, rfl, .push r g b (by simpa using h) hc⟩
    | trig =>
      simp only [exec, execTrig, trigEffect, hf', Bool.false_eq_true, if_false]
      split
      · exact .inl ⟨trivial, _, rfl⟩
      · rename_i h; split
        · rename_i hr; exact .inr ⟨trivial, _, rfl, .reject (by simpa using h) hr⟩
        · rename_i hr; exact .inr ⟨trivial, _, rfl, .accept (by simpa using h) (by simpa using hr)⟩
    | waitb =>
      simp only [exec, execWaitb, waitbEffect, hf', Bool.false_eq_true, if_false]
      split
      · exact .inl ⟨trivial, _, rfl⟩
      · rename_i h; exact .inr ⟨trivial, _, rfl, .waitb (by simpa using h)⟩
    | waits =>
      simp only [exec, execWaits, waitsEffect, hf', Bool.false_eq_true, if_false]
      split
      · exact .inl ⟨trivial, _, rfl⟩
      · rename_i h; exact .inr ⟨trivial, _, rfl, .waits (by simpa using h)⟩
    | cancel =>
      simp only [exec, execCancel, cancelEffect, hf', Bool.false_eq_true, if_false]
      split
      · exact .inl ⟨trivial, _, rfl⟩
      · rename_i h
        have h : s.owner = .waiting ∧ s.wmode = .suspending := by simpa [not_or] using h
        exact .inr ⟨trivial, _, rfl, .cancel h.1 h.2⟩

/-! ### Bus accesses -/

/-- CMD is at offset 0, and the only register that may be stored (R166). -/
theorem accessOk_store_register {p : Config.Params} {off n : Nat} (h : accessOk p .store off n = true)
    (hr : off < 0x100) : off = 0 ∧ n = 4 := by
  unfold accessOk at h
  split at h
  · simp only [Bool.and_eq_true, decide_eq_true_eq] at h
    omega
  · simp at h

/-- A legal access past the registers is a whole slot of the buffer (R166). -/
theorem accessOk_slot {p : Config.Params} {k : AccessKind} {off n : Nat} (h : accessOk p k off n = true)
    (hr : ¬off < 0x100) : n = 2 ∧ off = offsetOfSlot (slotOfOffset off) ∧ slotOfOffset off < capacity p := by
  unfold accessOk at h
  have h34 : ¬off < 0x034 := by omega
  simp only [h34, hr, if_false, decide_eq_true_eq] at h
  unfold offsetOfSlot slotOfOffset capacity
  omega

/-- Slot `i` of the buffer is at offset 0x100 + 2i, and a 16-bit access there passes the check (R22, R166). -/
theorem accessOk_offsetOfSlot {p : Config.Params} (k : AccessKind) {i : Nat} (h : i < capacity p) :
    accessOk p k (offsetOfSlot i) 2 = true := by
  unfold capacity at h
  have h1 : ¬offsetOfSlot i < 0x034 := by unfold offsetOfSlot; omega
  have h2 : ¬offsetOfSlot i < 0x100 := by unfold offsetOfSlot; omega
  simp only [accessOk, h1, h2, if_false, decide_eq_true_eq]
  unfold offsetOfSlot at *
  exact ⟨by omega, by trivial, by omega⟩

@[simp] theorem slotOfOffset_offsetOfSlot (i : Nat) : slotOfOffset (offsetOfSlot i) = i := by
  unfold slotOfOffset offsetOfSlot; omega

/-- The check lets every 32-bit store to CMD pass. -/
@[simp] theorem accessOk_cmd (p : Config.Params) : accessOk p .store 0 4 = true := rfl

/-- The effects a host step can have (R161 to R164, R84). -/
inductive HostEffect (op : HostOp) (u : State) : State → Prop
  | replied (r : Reply) : HostEffect op u (setReply r u)
  | drew (n : Nat) : HostEffect op u (replyDraw n u)
  | ignored : HostEffect op u u
  | raised (c : Cause) (h : u.fault = false) : HostEffect op u (raiseFault c u)
  | stored (a : HostAddr) (v : BusData) (i : Nat) (hop : op = .store a 2 v)
      (ha : a.resolve u.cfg = some (offsetOfSlot i)) (h : u.fault = false) (ho : u.owner = .idle)
      (hi : i < capacity u.cfg) : HostEffect op u (storeSlot i (v.setWidth 16) u)
  | command (a : HostAddr) (v : BusData) (i : Instr) (t : State) (hop : op = .store a 4 v)
      (ha : a.resolve u.cfg = some 0) (hd : decode (v.setWidth 32) = .ok i) (h : u.fault = false)
      (ht : CommandEffect u i t) : HostEffect op u t
  | returned (r : WriteResult) (u' : State) (hu : u' = u ∨ ∃ r, u' = setReply r u)
      (hr : r = .ok → u.host.task ∈ u.host.elapsed) : HostEffect op u (recordResult r u')
  | waitNext (mode : WaitMode) (hop : op = .checkResult mode) (r : Reply) :
      HostEffect op u (setAgenda (asTask u.host.task [storeCommand (waitCommand mode), .finishWrite .ok] ++ u.agenda)
        (forgetElapsed (setReply r u)))

theorem memRead_effect (op : HostOp) (off n : Nat) (u : State) : HostEffect op u (memRead off n u) := by
  unfold memRead
  split
  · split
    · exact .replied _
    · unfold loadSlot
      split
      · exact .drew _
      · rename_i h; split
        · exact .raised _ (by simpa using h)
        · exact .replied _
  · unfold refuseLoad
    split
    · exact .drew _
    · rename_i h; exact .raised _ (by simpa using h)

theorem busLoad_effect (op : HostOp) (a : HostAddr) (n : Nat) (u : State) : HostEffect op u (busLoad a n u) := by
  unfold busLoad
  split
  · exact memRead_effect ..
  · exact .replied _

theorem busStore_effect {a : HostAddr} {n : Nat} {v : BusData} {u : State} :
    ∃ t, busStore a n v u = .next t ∧ HostEffect (.store a n v) u t := by
  unfold busStore
  split
  · rename_i off ha
    unfold memWrite
    split
    · rename_i hok
      split
      · rename_i hr
        obtain ⟨rfl, rfl⟩ := accessOk_store_register hok hr
        unfold deliver
        split
        · exact ⟨_, rfl, .ignored⟩
        · rename_i hf
          have hf : u.fault = false := by simpa using hf
          split
          · rename_i i hd
            rcases exec_cases (rfl : exec i u = _) with ⟨h, -⟩ | ⟨-, c, ho⟩ | ⟨-, t, ho, ht⟩
            · rw [hf] at h; exact absurd h (by decide)
            · exact ⟨_, ho, .raised c hf⟩
            · exact ⟨t, ho, .command a v i t rfl ha hd hf ht⟩
          · exact ⟨_, rfl, .raised _ hf⟩
      · rename_i hr
        refine ⟨_, rfl, ?_⟩
        unfold storeBuf
        split
        · exact .ignored
        · rename_i hf
          have hf : u.fault = false := by simpa using hf
          split
          · exact .raised _ hf
          · rename_i ho
            obtain ⟨rfl, ho2, hi⟩ := accessOk_slot hok hr
            exact .stored a v _ rfl (by rw [← ho2]; exact ha) hf (by simpa using ho) hi
    · refine ⟨_, rfl, ?_⟩
      unfold refuseStore
      split
      · exact .ignored
      · rename_i hf; exact .raised _ (by simpa using hf)
  · exact ⟨_, rfl, .replied _⟩

/-- A load of STATUS gives its value in every state (R154, R163). -/
theorem memRead_status (s : State) :
    memRead 0x004 4 s = setReply (.value ((statusWord s).setWidth 64)) s := rfl

/-- Every host step answers a next state, by one of the effects. -/
theorem runHostOp_effect (op : HostOp) (u : State) : ∃ t, runHostOp op u = .next t ∧ HostEffect op u t := by
  cases op with
  | load a n => exact ⟨_, rfl, busLoad_effect ..⟩
  | store a n v => exact busStore_effect
  | finishWrite r =>
    refine ⟨_, rfl, ?_⟩
    cases r with
    | triggerError => exact .returned .triggerError u (.inl rfl) (by simp)
    | ok =>
      unfold finishWrite
      simp only
      split
      · rename_i h; exact .returned .ok u (.inl rfl) (fun _ => h)
      · exact .ignored
  | checkResult mode =>
    refine ⟨_, rfl, ?_⟩
    rw [checkResult, memRead_status, branchOnResult]
    split
    · exact .returned .triggerError _ (.inr ⟨_, rfl⟩) (by simp)
    · exact .waitNext mode rfl _

/-! ### Ticks -/

/-- The clock's half that belongs to the timer (R145, R146): nothing, an expiry, a count, or a failure. -/
theorem tickTimer_cases (s : State) :
    (tickTimer s = s ∧ ¬(s.owner = .waiting ∧ s.timer.failed = false))
      ∨ (s.owner = .waiting ∧ s.timer.failed = false ∧
        ((tickTimer s = failTimer (countTimerDraw s) ∧ s.cfg.timerMayFail = true)
          ∨ (tickTimer s = expire (countTimerDraw s) ∧ s.timer.remain ≤ 1)
          ∨ (tickTimer s = { countTimerDraw s with timer := { s.timer with remain := s.timer.remain - 1 } }
              ∧ 2 ≤ s.timer.remain))) := by
  unfold tickTimer
  split
  · rename_i h
    right
    refine ⟨h.1, h.2, ?_⟩
    split
    · rename_i hd
      exact .inl ⟨rfl, by simp only [Bool.and_eq_true] at hd; exact hd.1⟩
    · right
      unfold countDown
      simp only [countTimerDraw_timer]
      by_cases hr : s.timer.remain - 1 = 0
      · exact .inl ⟨if_pos hr, by omega⟩
      · exact .inr ⟨if_neg hr, by omega⟩
  · rename_i h; exact .inl ⟨rfl, h⟩

theorem latchSlot_frame (i : Nat) (s : State) :
    ∃ w n, latchSlot i s = { s with seq := { s.seq with word := w }, draws := n } := by
  unfold latchSlot
  split
  · exact ⟨_, _, rfl⟩
  · exact ⟨_, s.draws, rfl⟩

/-- The sequencer writes only the line, its trace and its own state, and takes draws (R131). -/
theorem tickSeq_frame (s : State) :
    ∃ q l n, tickSeq s = { s with seq := q, line := l, trace := l :: s.trace, draws := n } := by
  unfold tickSeq
  split
  · exact ⟨s.seq, _, s.draws, rfl⟩
  · unfold tickLat
    split
    · obtain ⟨w, n, h⟩ := latchSlot_frame 0 (atSlot .bits 0 0 0 (emit .low s))
      exact ⟨_, _, _, h⟩
    · exact ⟨_, _, s.draws, rfl⟩
  · unfold tickBits advanceBit
    split
    · split
      · exact ⟨_, _, _, rfl⟩
      · obtain ⟨w, n, h⟩ := latchSlot_frame ((emitBit s).seq.slot + 1)
          (atSlot .bits ((emitBit s).seq.slot + 1) 0 (emitBit s).seq.cnt (emitBit s))
        exact ⟨_, _, _, h⟩
    · exact ⟨_, _, _, rfl⟩
  · unfold tickGap
    split
    · exact ⟨_, _, s.draws, rfl⟩
    · exact ⟨_, _, s.draws, rfl⟩

/-! The fields that the sequencer's half of a tick leaves alone (R131), and those that the timer's half leaves alone. -/

@[simp] theorem tickSeq_cfg (s : State) : (tickSeq s).cfg = s.cfg := by
  obtain ⟨q, l, n, h⟩ := tickSeq_frame s; rw [h]

@[simp] theorem tickSeq_owner (s : State) : (tickSeq s).owner = s.owner := by
  obtain ⟨q, l, n, h⟩ := tickSeq_frame s; rw [h]

@[simp] theorem tickSeq_wmode (s : State) : (tickSeq s).wmode = s.wmode := by
  obtain ⟨q, l, n, h⟩ := tickSeq_frame s; rw [h]

@[simp] theorem tickSeq_result (s : State) : (tickSeq s).result = s.result := by
  obtain ⟨q, l, n, h⟩ := tickSeq_frame s; rw [h]

@[simp] theorem tickSeq_fault (s : State) : (tickSeq s).fault = s.fault := by
  obtain ⟨q, l, n, h⟩ := tickSeq_frame s; rw [h]

@[simp] theorem tickSeq_fcode (s : State) : (tickSeq s).fcode = s.fcode := by
  obtain ⟨q, l, n, h⟩ := tickSeq_frame s; rw [h]

@[simp] theorem tickSeq_cursor (s : State) : (tickSeq s).cursor = s.cursor := by
  obtain ⟨q, l, n, h⟩ := tickSeq_frame s; rw [h]

@[simp] theorem tickSeq_buf (s : State) : (tickSeq s).buf = s.buf := by
  obtain ⟨q, l, n, h⟩ := tickSeq_frame s; rw [h]

@[simp] theorem tickSeq_timer (s : State) : (tickSeq s).timer = s.timer := by
  obtain ⟨q, l, n, h⟩ := tickSeq_frame s; rw [h]

@[simp] theorem tickSeq_host (s : State) : (tickSeq s).host = s.host := by
  obtain ⟨q, l, n, h⟩ := tickSeq_frame s; rw [h]

@[simp] theorem tickSeq_binding (s : State) : (tickSeq s).binding = s.binding := by
  obtain ⟨q, l, n, h⟩ := tickSeq_frame s; rw [h]

@[simp] theorem tickSeq_agenda (s : State) : (tickSeq s).agenda = s.agenda := by
  obtain ⟨q, l, n, h⟩ := tickSeq_frame s; rw [h]

@[simp] theorem tickTimer_cfg (s : State) : (tickTimer s).cfg = s.cfg := by
  rcases tickTimer_cases s with ⟨h, -⟩ | ⟨-, -, ⟨h, -⟩ | ⟨h, -⟩ | ⟨h, -⟩⟩ <;> rw [h] <;> rfl

@[simp] theorem tickTimer_result (s : State) : (tickTimer s).result = s.result := by
  rcases tickTimer_cases s with ⟨h, -⟩ | ⟨-, -, ⟨h, -⟩ | ⟨h, -⟩ | ⟨h, -⟩⟩ <;> rw [h] <;> rfl

@[simp] theorem tickTimer_cursor (s : State) : (tickTimer s).cursor = s.cursor := by
  rcases tickTimer_cases s with ⟨h, -⟩ | ⟨-, -, ⟨h, -⟩ | ⟨h, -⟩ | ⟨h, -⟩⟩ <;> rw [h] <;> rfl

@[simp] theorem tickTimer_buf (s : State) : (tickTimer s).buf = s.buf := by
  rcases tickTimer_cases s with ⟨h, -⟩ | ⟨-, -, ⟨h, -⟩ | ⟨h, -⟩ | ⟨h, -⟩⟩ <;> rw [h] <;> rfl

@[simp] theorem tickTimer_seq (s : State) : (tickTimer s).seq = s.seq := by
  rcases tickTimer_cases s with ⟨h, -⟩ | ⟨-, -, ⟨h, -⟩ | ⟨h, -⟩ | ⟨h, -⟩⟩ <;> rw [h] <;> rfl

@[simp] theorem tickTimer_line (s : State) : (tickTimer s).line = s.line := by
  rcases tickTimer_cases s with ⟨h, -⟩ | ⟨-, -, ⟨h, -⟩ | ⟨h, -⟩ | ⟨h, -⟩⟩ <;> rw [h] <;> rfl

@[simp] theorem tickTimer_trace (s : State) : (tickTimer s).trace = s.trace := by
  rcases tickTimer_cases s with ⟨h, -⟩ | ⟨-, -, ⟨h, -⟩ | ⟨h, -⟩ | ⟨h, -⟩⟩ <;> rw [h] <;> rfl

@[simp] theorem tickTimer_binding (s : State) : (tickTimer s).binding = s.binding := by
  rcases tickTimer_cases s with ⟨h, -⟩ | ⟨-, -, ⟨h, -⟩ | ⟨h, -⟩ | ⟨h, -⟩⟩ <;> rw [h] <;> rfl

@[simp] theorem tickTimer_agenda (s : State) : (tickTimer s).agenda = s.agenda := by
  rcases tickTimer_cases s with ⟨h, -⟩ | ⟨-, -, ⟨h, -⟩ | ⟨h, -⟩ | ⟨h, -⟩⟩ <;> rw [h] <;> rfl

@[simp] theorem tick_cfg (s : State) : (tick s).cfg = s.cfg := by simp [tick]

@[simp] theorem tick_result (s : State) : (tick s).result = s.result := by simp [tick]

@[simp] theorem tick_cursor (s : State) : (tick s).cursor = s.cursor := by simp [tick]

@[simp] theorem tick_buf (s : State) : (tick s).buf = s.buf := by simp [tick]

@[simp] theorem tick_binding (s : State) : (tick s).binding = s.binding := by simp [tick]

@[simp] theorem tick_agenda (s : State) : (tick s).agenda = s.agenda := by simp [tick]

/-- The sequencer's state after a tick is that after its own half. -/
@[simp] theorem tick_seq (s : State) : (tick s).seq = (tickSeq s).seq := by simp [tick]

theorem tick_line (s : State) : (tick s).line = (tickSeq s).line := by simp [tick]

theorem tick_trace (s : State) : (tick s).trace = (tickSeq s).trace := by simp [tick]

/-- One tick records one level. -/
theorem tickSeq_trace (s : State) : (tickSeq s).trace = (tickSeq s).line :: s.trace := by
  obtain ⟨q, l, n, h⟩ := tickSeq_frame s; rw [h]

theorem latchSlot_setAgenda (i : Nat) (rest : List Event) (s : State) :
    latchSlot i (setAgenda rest s) = setAgenda rest (latchSlot i s) := by
  unfold latchSlot
  by_cases h : i ∈ s.seq.dirty
  · rw [if_pos h, if_pos (show i ∈ (setAgenda rest s).seq.dirty from h)]; rfl
  · rw [if_neg h, if_neg (show i ∉ (setAgenda rest s).seq.dirty from h)]; rfl

/-- The sequencer does not look at the agenda. -/
theorem tickSeq_setAgenda (rest : List Event) (s : State) :
    tickSeq (setAgenda rest s) = setAgenda rest (tickSeq s) := by
  unfold tickSeq
  rw [setAgenda_seq]
  cases h : s.seq.phase with
  | off => rfl
  | lat =>
    show tickLat (setAgenda rest s) = setAgenda rest (tickLat s)
    unfold tickLat
    rw [setAgenda_seq]
    by_cases hc : s.seq.cnt - 1 = 0
    · rw [if_pos hc, if_pos hc]
      exact latchSlot_setAgenda 0 rest (atSlot .bits 0 0 0 (emit .low s))
    · rw [if_neg hc, if_neg hc]; rfl
  | bits =>
    show advanceBit (setAgenda rest (emitBit s)) = setAgenda rest (advanceBit (emitBit s))
    generalize emitBit s = u
    unfold advanceBit
    rw [setAgenda_seq, setAgenda_cfg]
    by_cases h1 : u.seq.tick + 1 = periodTicks
    · rw [if_pos h1, if_pos h1]
      by_cases h2 : u.seq.slot + 1 = capacity u.cfg
      · rw [if_pos h2, if_pos h2]; rfl
      · rw [if_neg h2, if_neg h2]
        exact latchSlot_setAgenda (u.seq.slot + 1) rest (atSlot .bits (u.seq.slot + 1) 0 u.seq.cnt u)
    · rw [if_neg h1, if_neg h1]; rfl
  | gap =>
    show tickGap (setAgenda rest s) = setAgenda rest (tickGap s)
    unfold tickGap
    rw [setAgenda_seq]
    by_cases hc : s.seq.cnt - 1 = 0
    · rw [if_pos hc, if_pos hc]; rfl
    · rw [if_neg hc, if_neg hc]; rfl

/-! ### Steps -/

/-- What a step does: a tick, one host step of the next enabled event (R14), or power-on reset (R200). -/
theorem step_cases {s t : State} (h : step s = .next t) :
    (∃ rest, t = tick (setAgenda rest s))
      ∨ (∃ task op rest, nextEvent s s.agenda = some (.host task op, rest)
          ∧ HostEffect op (hostTurn task rest s) t)
      ∨ ∃ rest, nextEvent s s.agenda = some (.powerOn, rest) ∧ t = powerOnReset rest s := by
  unfold step nextStep at h
  split at h
  · left; exact ⟨s.agenda, by injection h with h; exact h.symm⟩
  · left; rename_i rest _; exact ⟨rest, by injection h with h; exact h.symm⟩
  · rename_i rest hn; exact .inr (.inr ⟨rest, hn, by injection h with h; exact h.symm⟩)
  · rename_i task op rest hn
    right; left
    obtain ⟨t', ht', he⟩ := runHostOp_effect op (hostTurn task rest s)
    rw [ht'] at h
    injection h with h
    subst h
    exact ⟨task, op, rest, hn, he⟩

end Sys2Proof.Machine
end

