-- ==== Sys2Proof/Laws/Sequencer.lean ====
section
/-! SUPPORT. What one tick does to the sequencer's state, phase by phase (R124), runs of ticks, and which event steps next. -/

namespace Sys2Proof.Machine

/-! ### One tick -/

/-- A tick in OFF leaves the sequencer as it is. -/
theorem tickSeq_off {s : State} (h : s.seq.phase = .off) : (tickSeq s).seq = s.seq := by
  simp [tickSeq, h, tickOff]

/-- A tick in LAT counts down; the last one starts slot 0. -/
theorem tickSeq_lat {s : State} (h : s.seq.phase = .lat) :
    (s.seq.cnt - 1 = 0 →
      ∃ w, (tickSeq s).seq = { s.seq with phase := .bits, slot := 0, tick := 0, cnt := 0, word := w })
      ∧ (s.seq.cnt - 1 ≠ 0 → (tickSeq s).seq = { s.seq with cnt := s.seq.cnt - 1 }) := by
  constructor
  · intro hc
    obtain ⟨w, n, h'⟩ := latchSlot_frame 0 (atSlot .bits 0 0 0 (emit .low s))
    refine ⟨w, ?_⟩
    simp only [tickSeq, h, tickLat, hc, if_true]
    rw [h']
    rfl
  · intro hc
    simp only [tickSeq, h, tickLat, hc, if_false]
    simp

/-- A tick in BITS goes to the next tick of the slot, the next slot, or the reset gap. -/
theorem tickSeq_bits {s : State} (h : s.seq.phase = .bits) :
    (s.seq.tick + 1 ≠ periodTicks → (tickSeq s).seq = { s.seq with tick := s.seq.tick + 1 })
      ∧ (s.seq.tick + 1 = periodTicks → s.seq.slot + 1 = capacity s.cfg →
        (tickSeq s).seq = { s.seq with phase := .gap, slot := s.seq.slot + 1, tick := 0, cnt := resetTicks })
      ∧ (s.seq.tick + 1 = periodTicks → s.seq.slot + 1 ≠ capacity s.cfg →
        ∃ w, (tickSeq s).seq = { s.seq with slot := s.seq.slot + 1, tick := 0, word := w }) := by
  refine ⟨fun h1 => ?_, fun h1 h2 => ?_, fun h1 h2 => ?_⟩
  · simp only [tickSeq, h, tickBits, advanceBit, emitBit_seq, h1, if_false]
    simp
  · simp only [tickSeq, h, tickBits, advanceBit, emitBit_seq, emitBit_cfg, h1, h2, if_true]
    simp
  · obtain ⟨w, n, h'⟩ := latchSlot_frame (s.seq.slot + 1) (atSlot .bits (s.seq.slot + 1) 0 s.seq.cnt (emitBit s))
    refine ⟨w, ?_⟩
    simp only [tickSeq, h, tickBits, advanceBit, emitBit_seq, emitBit_cfg, h1, h2, if_true, if_false]
    rw [h']
    simp

/-- A tick in GAP counts down; the last one ends the pass. -/
theorem tickSeq_gap {s : State} (h : s.seq.phase = .gap) :
    (s.seq.cnt - 1 = 0 → (tickSeq s).seq = { s.seq with phase := .off, cnt := 0, dirty := [] })
      ∧ (s.seq.cnt - 1 ≠ 0 → (tickSeq s).seq = { s.seq with cnt := s.seq.cnt - 1 }) := by
  constructor
  · intro hc; simp [tickSeq, h, tickGap, hc]
  · intro hc; simp [tickSeq, h, tickGap, hc]

/-! ### Runs of ticks -/

theorem ticks_add (a b : Nat) (s : State) : ticks (a + b) s = ticks b (ticks a s) := by
  induction a generalizing s with
  | zero => simp [ticks]
  | succ a ih =>
    rw [show a + 1 + b = (a + b) + 1 by omega]
    simp only [ticks]
    exact ih _

theorem ticks_succ (a : Nat) (s : State) : ticks (a + 1) s = tick (ticks a s) := by
  rw [ticks_add]; rfl

@[simp] theorem ticks_cfg (a : Nat) (s : State) : (ticks a s).cfg = s.cfg := by
  induction a generalizing s with
  | zero => rfl
  | succ a ih => simp [ticks, ih]

@[simp] theorem ticks_buf (a : Nat) (s : State) : (ticks a s).buf = s.buf := by
  induction a generalizing s with
  | zero => rfl
  | succ a ih => simp [ticks, ih]

/-! ### The next event -/

/-- The next event is enabled. -/
theorem nextEvent_enabled {s : State} : ∀ {l : List Event} {e : Event} {rest : List Event},
    nextEvent s l = some (e, rest) → enabled s e = true := by
  intro l
  induction l with
  | nil => intro e rest hn; simp [nextEvent] at hn
  | cons a l ih =>
    intro e rest hn
    unfold nextEvent at hn
    split at hn
    · rename_i he
      simp only [Option.some.injEq, Prod.mk.injEq] at hn
      rw [← hn.1]; exact he
    · split at hn
      · simp at hn
      · rename_i he
        simp only [Option.some.injEq, Prod.mk.injEq] at hn
        rw [← hn.1]; exact ih he

/-- The agenda is the events skipped, the next event, and those behind it; no event that was skipped is enabled. -/
theorem nextEvent_split {s : State} : ∀ {l : List Event} {e : Event} {rest : List Event},
    nextEvent s l = some (e, rest) →
      ∃ pre post, l = pre ++ e :: post ∧ rest = pre ++ post ∧ ∀ x ∈ pre, enabled s x = false := by
  intro l
  induction l with
  | nil => intro e rest hn; simp [nextEvent] at hn
  | cons a l ih =>
    intro e rest hn
    unfold nextEvent at hn
    split at hn
    · simp only [Option.some.injEq, Prod.mk.injEq] at hn
      exact ⟨[], l, by rw [hn.1]; rfl, hn.2.symm, by simp⟩
    · rename_i ha
      split at hn
      · simp at hn
      · rename_i e' rest' he
        simp only [Option.some.injEq, Prod.mk.injEq] at hn
        obtain ⟨pre, post, h1, h2, h3⟩ := ih he
        rw [hn.1] at h1
        refine ⟨a :: pre, post, by rw [h1]; rfl, by rw [← hn.2, h2]; rfl, ?_⟩
        simp only [List.mem_cons, forall_eq_or_imp]
        exact ⟨by simpa using ha, h3⟩

end Sys2Proof.Machine
end

