-- ==== Sys2Proof/Laws/PerInstr.lean ====
section
/-! SUPPORT. Statements about every command as syntax, one lemma per constructor of Instr. -/

namespace Sys2Proof.Laws.Encoding

/-- The command's word passes both checks on command words (R71, R75) and selects the command's own row of the opcode map
(R74). -/
def Statement (i : Instr) : Prop := wordWellFormed (encode i) = true ∧ rowSelects (rowOf i) (encode i) = true

theorem init : Statement .init := by unfold Statement; decide

theorem beginFrame : Statement .beginFrame := by unfold Statement; decide

/-- PUSH's opcode field, whatever the colour. -/
theorem push_opcode (r g b : Byte) : (encode (.push r g b)).extractLsb' 24 8 = 0x03#8 := by
  apply BitVec.eq_of_getLsbD_eq
  intro i hi
  have h1 : ¬(24 + i < 8) := by omega
  have h2 : ¬(24 + i - 8 < 8) := by omega
  have h3 : ¬(24 + i - 8 - 8 < 8) := by omega
  have h4 : 24 + i - 8 - 8 - 8 = i := by omega
  simp only [encode, BitVec.getLsbD_extractLsb', BitVec.getLsbD_append, hi, h1, h2, h3, h4, decide_true, Bool.true_and,
    if_false]

theorem push (r g b : Byte) : Statement (.push r g b) := by
  have ho := push_opcode r g b
  refine ⟨by simp [wordWellFormed, wordOpcodeLegal, wordReservedClear, ho], ?_⟩
  have hm : ∀ i, i < 24 → (0xFF000000#32).getLsbD i = false ∧ (0x03000000#32).getLsbD i = false := by decide
  have hm' : ∀ j, j < 8 →
      (0xFF000000#32).getLsbD (24 + j) = true ∧ (0x03000000#32).getLsbD (24 + j) = (0x03#8).getLsbD j := by decide
  simp only [rowSelects, rowOf, beq_iff_eq]
  apply BitVec.eq_of_getLsbD_eq
  intro i hi
  rw [BitVec.getLsbD_and]
  by_cases h : i < 24
  · simp [hm i h]
  · obtain ⟨j, rfl⟩ : ∃ j, i = 24 + j := ⟨i - 24, by omega⟩
    have hj : j < 8 := by omega
    rw [(hm' j hj).1, (hm' j hj).2, ← ho, BitVec.getLsbD_extractLsb']
    simp [hj]

theorem trig : Statement .trig := by unfold Statement; decide

theorem waitb : Statement .waitb := by unfold Statement; decide

theorem waits : Statement .waits := by unfold Statement; decide

theorem cancel : Statement .cancel := by unfold Statement; decide

end Sys2Proof.Laws.Encoding
end

