-- ==== Sys2Proof/Tests/Slice0.lean ====
section
/-! SUPPORT. Tests whose expected results come from the spec (the vector is named at each), and one witness for every
statement that has hypotheses. -/

namespace Sys2Proof.Tests

open Sys2Proof Sys2Proof.Machine Sys2Proof.Safety

/-! ### Small states -/

/-- A launch with `n` LEDs, no start latency, no refusal and no timer failure. -/
def launch (n : Nat) : Config.Params where
  ledCount := n
  maxSlots := 32767
  maxGapTicks := 16777215
  startLatency := 0
  trigMayRefuse := false
  timerMayFail := false
  linePreInit := .high
  outputPin := 4
  pinValid := true
  drive := 2
  blockBase := 0x40000000

/-- One LED, constructed, in the given ownership state. -/
def at1 (o : Owner) : State :=
  { State.resetWith (launch 1) with owner := o, binding := some { pin := 4, drive := 2 }, line := .low }

/-- In flight: an accepted trigger. -/
def flying (o : Owner) : State := { at1 o with result := .ok }

/-- A suspending wait of task 5 with `r` ticks to go. -/
def asleep (r : Nat) : State :=
  { flying .waiting with
    wmode := .suspending, timer := { remain := r, failed := false }
    host := { blocked := false, suspended := some 5, task := 5, reply := .none, results := [], elapsed := [] } }

/-- A blocking wait with `r` ticks to go. -/
def blocked (r : Nat) : State :=
  { flying .waiting with
    timer := { remain := r, failed := false }
    host := { blocked := true, suspended := none, task := 5, reply := .none, results := [], elapsed := [] } }

/-- The state after an outcome. -/
def after (o : Host.Outcome State Fault Refusal) (s : State) : State :=
  match o with
  | .next t => t
  | .fault _ => s
  | .refused _ => s

/-- STATUS after a command. -/
def statusAfter (i : Instr) (s : State) : Word := statusWord (after (exec i s) s)

/-- The event that stores `w` to CMD for task 5. -/
def cmd (w : BusData) : Event := .host 5 (.store (.window 0#17) 4 w)

/-! ### Well-formedness: an ill-formed term for each check -/

/-- R75: the reserved opcodes 0x00 and 0x08 fail the first check alone. -/
theorem test_wellformed_opcode : wordOpcodeLegal 0x00000000#32 = false ∧ wordOpcodeLegal 0x08000000#32 = false
    ∧ wordOpcodeLegal 0x01000000#32 = true ∧ wordOpcodeLegal 0x07000000#32 = true := by decide

/-- R72: a format-N word with an operand bit set fails the second check alone; PUSH's operand bits are free. -/
theorem test_wellformed_reserved : wordReservedClear 0x02000001#32 = false ∧ wordReservedClear 0x02800000#32 = false
    ∧ wordReservedClear 0x03FFFFFF#32 = true ∧ wordWellFormed 0x02000001#32 = false := by decide

/-- R84: a frame of more than N colours is refused. -/
theorem test_wellformed_frame : frameWellFormed 1 [⟨1, 2, 3⟩, ⟨4, 5, 6⟩] = false
    ∧ frameWellFormed 2 [⟨1, 2, 3⟩, ⟨4, 5, 6⟩] = true := by decide

/-! ### Decoding: words written out from R72 to R74 and from V2.2 -/

theorem test_decode_init : decode 0b00000001_00000000_00000000_00000000#32 = .ok .init := by decide

theorem test_decode_begin : decode 0b00000010_00000000_00000000_00000000#32 = .ok .beginFrame := by decide

/-- R73: red in [23:16], green in [15:8], blue in [7:0]. -/
theorem test_decode_push : decode 0b00000011_10000001_01000010_00100100#32 = .ok (.push 0x81 0x42 0x24) := by decide

/-- V2.2: `PUSH 0, 255, 0`. -/
theorem test_decode_push_green : decode 0x0300FF00#32 = .ok (.push 0 255 0) := by decide

theorem test_decode_trig : decode 0b00000100_00000000_00000000_00000000#32 = .ok .trig := by decide

theorem test_decode_waitb : decode 0b00000101_00000000_00000000_00000000#32 = .ok .waitb := by decide

theorem test_decode_waits : decode 0b00000110_00000000_00000000_00000000#32 = .ok .waits := by decide

theorem test_decode_cancel : decode 0b00000111_00000000_00000000_00000000#32 = .ok .cancel := by decide

/-- V2.2: the five illegal words. -/
theorem test_decode_illegal : decode 0x00000000#32 = .error (.reservedOpcode 0#8)
    ∧ decode 0x08000000#32 = .error (.reservedOpcode 8#8) ∧ decode 0xFF000000#32 = .error (.reservedOpcode 255#8)
    ∧ decode 0x02000001#32 = .error (.reservedBits 2#8 1#24)
    ∧ decode 0x02800000#32 = .error (.reservedBits 2#8 0x800000#24) := by decide

/-- R82: the encoder's word of a colour. -/
theorem test_encode_push : encode (.push 0x12 0x34 0x56) = 0x03123456#32 := by decide

/-! ### Timing and colours -/

/-- V2.1: the edges of the rounding. -/
theorem test_to_ticks : toTicks 31 = 0 ∧ toTicks 32 = 1 ∧ toTicks 343 = 5 ∧ toTicks 344 = 6 ∧ toTicks 406 = 6
    ∧ toTicks 407 = 7 := by decide

/-- V1.2 and V2.1: DELAY_US and the timer's ticks for 8 and for 1365 LEDs. -/
theorem test_delay : delayUs (launch 8) = 510 ∧ delayTicks (launch 8) = 8160 ∧ delayUs (launch 1365) = 41220
    ∧ delayTicks (launch 1365) = 659520 := by decide

/-- V2.3 row 10: the chunk of (0x80, 0x01, 0xAA) has its ONE slots at 7, 8, 16, 18, 20 and 22. -/
theorem test_chunk : (List.range 24).filter (fun k => chunkCode 0x80 0x01 0xAA k == 0x800D#16) = [7, 8, 16, 18, 20, 22] := by
  decide

/-- V2.4: levels at the duty's edge, for both codes and the canonical words of duty 0 and 20. -/
theorem test_level : waveLevel 0 0x8006#16 5 = .high ∧ waveLevel 0 0x8006#16 6 = .low ∧ waveLevel 0 0x800D#16 12 = .high
    ∧ waveLevel 0 0x800D#16 13 = .low ∧ waveLevel 0 0x8000#16 0 = .low ∧ waveLevel 0 0x8014#16 19 = .high := by decide

/-- V2.4: which words are canonical. -/
theorem test_canonical : canonical 0x8014#16 = true ∧ canonical 0x8015#16 = false ∧ canonical 0x0006#16 = false
    ∧ canonical 0xFFFF#16 = false ∧ canonical 0x0000#16 = false := by decide

/-! ### One command each (V2.3, V2.4, V2.5, V2.7) -/

/-- V2.7: INIT of an unconstructed block. -/
theorem test_init : statusAfter .init (State.resetWith (launch 8)) = 0x00000001#32
    ∧ (after (exec .init (State.resetWith (launch 8))) State.reset).line = .low := by decide

/-- V2.7: 1365 LEDs fit the slots of one pass and 1366 do not; no LED at all is refused. -/
theorem test_init_config : statusAfter .init (State.resetWith (launch 1365)) = 0x00000001#32
    ∧ statusAfter .init (State.resetWith (launch 1366)) = 0x00000140#32
    ∧ statusAfter .init (State.resetWith (launch 0)) = 0x00000140#32 := by decide

/-- V2.3: BEGIN clears RESULT and CURSOR. -/
theorem test_begin :
    statusAfter .beginFrame { at1 .idle with result := .triggerError, cursor := 3 } = 0x00000002#32
    ∧ (after (exec .beginFrame { at1 .idle with cursor := 3 }) State.reset).cursor = 0 := by decide

/-- V2.3: BEGIN outside IDLE. -/
theorem test_begin_violation : statusAfter .beginFrame (at1 .encoding) = 0x00000442#32
    ∧ statusAfter .beginFrame (State.resetWith (launch 1)) = 0x00000440#32 := by decide

/-- V2.3: the second colour of a frame ends at slot 47. -/
theorem test_push :
    let t := after (exec (.push 0 0 1) { State.resetWith (launch 2) with owner := .encoding, cursor := 1 }) State.reset
    t.cursor = 2 ∧ readSlot t.buf 46 = 0x8006#16 ∧ readSlot t.buf 47 = 0x800D#16 := by decide

/-- V2.3: PUSH past the last LED, and PUSH outside ENCODING. -/
theorem test_push_faults : statusAfter (.push 0 0 0) { at1 .encoding with cursor := 1 } = 0x00000742#32
    ∧ statusAfter (.push 1 2 3) (at1 .idle) = 0x00000441#32 := by decide

/-- V2.4: an accepted trigger, without and with a start latency. -/
theorem test_trig : statusAfter .trig (at1 .encoding) = 0x00000013#32
    ∧ (after (exec .trig { at1 .encoding with cfg := { launch 1 with startLatency := 5 } }) State.reset).seq
      = { phase := .lat, cnt := 5, slot := 0, tick := 0, word := 0#16, dirty := [] } := by decide

/-- V2.4: a trigger while the sequencer is busy, and one in flight. -/
theorem test_trig_rejected :
    statusAfter .trig { at1 .encoding with seq := { (at1 .idle).seq with phase := .gap, cnt := 3 } } = 0x00000021#32
    ∧ statusAfter .trig (flying .transmitting) = 0x00000453#32 := by decide

/-- V2.5: WAITB. -/
theorem test_waitb : statusAfter .waitb (flying .transmitting) = 0x00000014#32
    ∧ (after (exec .waitb (flying .transmitting)) State.reset).timer.remain = 4800
    ∧ (after (exec .waitb (flying .transmitting)) State.reset).host.blocked = true := by decide

/-- V2.5: WAITB after a rejected trigger. -/
theorem test_waitb_violation : statusAfter .waitb { at1 .idle with result := .triggerError } = 0x00000461#32 := by decide

/-- V2.5: WAITS. -/
theorem test_waits : statusAfter .waits (flying .transmitting) = 0x0000001C#32
    ∧ (after (exec .waits (flying .transmitting)) State.reset).timer.remain = 4800
    ∧ (after (exec .waits (flying .transmitting)) State.reset).host.blocked = false := by decide

/-- V2.5: a second WAITS during the wait. -/
theorem test_waits_violation : statusAfter .waits (asleep 10) = 0x0000045C#32 := by decide

/-- V2.5: CANCEL of a suspending wait. -/
theorem test_cancel : statusAfter .cancel (asleep 4700) = 0x00000011#32
    ∧ (after (exec .cancel (asleep 4700)) State.reset).timer.remain = 0 := by decide

/-- R150, V2.2: CANCEL of a blocking wait and CANCEL in IDLE are violations. -/
theorem test_cancel_violation : statusAfter .cancel (blocked 10) = 0x00000454#32
    ∧ statusAfter .cancel (at1 .idle) = 0x00000441#32 := by decide

/-! ### Ticks and bus accesses -/

/-- V2.5: the timer's last tick ends the wait. -/
theorem test_tick_expiry : statusWord (tick (blocked 1)) = 0x00000011#32 ∧ (tick (blocked 1)).host.blocked = false := by
  decide

/-- V2.4: the last tick of a slot latches the next one. -/
theorem test_tick_next_slot :
    let t := tick { flying .waiting with
      buf := { powerOn := 0, cells := [(10, 0x0D#8), (11, 0x80#8)] }
      seq := { phase := .bits, cnt := 0, slot := 4, tick := 19, word := 0x8006#16, dirty := [] } }
    t.seq.slot = 5 ∧ t.seq.tick = 0 ∧ t.seq.word = 0x800D#16 ∧ t.line = .low := by decide

/-- V2.6: slot accesses outside IDLE, in three states. -/
theorem test_slot_ownership : statusWord (memRead 0x100 2 (at1 .encoding)) = 0x00000542#32
    ∧ statusWord (memRead 0x100 2 (asleep 9)) = 0x0000055C#32
    ∧ statusWord (after (memWrite 0x106 2 0x8006#64 (flying .transmitting)) State.reset) = 0x00000553#32 := by decide

/-- V2.7: the access checks of one LED's block. -/
theorem test_access : accessOk (launch 1) .load 0x000 4 = false ∧ accessOk (launch 1) .load 0x034 4 = false
    ∧ accessOk (launch 1) .load 0x006 4 = false ∧ accessOk (launch 1) .load 0x004 2 = false
    ∧ accessOk (launch 1) .load 0x101 2 = false ∧ accessOk (launch 1) .load 0x12E 2 = true
    ∧ accessOk (launch 1) .load 0x130 2 = false ∧ accessOk (launch 1) .store 0x004 4 = false := by decide

/-- V2.7: registers of one LED's block. -/
theorem test_registers : readRegister 0x00C (at1 .idle) = 1#32 ∧ readRegister 0x010 (at1 .idle) = 24#32
    ∧ readRegister 0x028 (at1 .idle) = 300#32 ∧ readRegister 0x02C (at1 .idle) = 1#32
    ∧ readRegister 0x030 (at1 .idle) = 16#32 := by decide

/-- V2.2: a step that stores an illegal word to CMD. -/
theorem test_step_illegal :
    statusWord (after (step { at1 .idle with agenda := [cmd 0x02000001#64] }) State.reset) = 0x00000341#32 := by decide

/-- V2.5 and R184: an illegal word during a wait is ILLEGAL_COMMAND, not PROTOCOL_VIOLATION. -/
theorem test_step_illegal_first :
    statusWord (after (step { asleep 9 with agenda := [.host 6 (.store (.window 0#17) 4 0#64)] }) State.reset)
      = 0x0000035C#32 := by decide

/-- P1: WRITE.B of one red colour stores BEGIN, PUSH 255, 0, 0 and TRIG to CMD and then looks at RESULT. -/
theorem test_write_program : writeProgram .blocking [⟨255, 0, 0⟩]
    = [.store (.window 0#17) 4 0x02000000#64, .store (.window 0#17) 4 0x03FF0000#64,
      .store (.window 0#17) 4 0x04000000#64, .checkResult .blocking] := by decide

/-- P2: FILL on two LEDs stores to 48 slots, from 0x100 to 0x15E. -/
theorem test_fill_program : (fillProgram (launch 2) 0xFFFF#16).length = 48
    ∧ (fillProgram (launch 2) 0xFFFF#16)[0]? = some (.store (.absolute 0x40000100) 2 0xFFFF#64)
    ∧ (fillProgram (launch 2) 0xFFFF#16)[47]? = some (.store (.absolute 0x4000015E) 2 0xFFFF#64) := by decide

/-- R147, R170: the end of a write whose wait never began, or was cut short by a power-on reset, returns nothing. -/
theorem test_no_early_ok :
    let s := { at1 .idle with fault := true, fcode := 4#4, agenda := [.host 5 (.finishWrite .ok)] }
    let u := powerOnReset [.host 5 (.finishWrite .ok)] (blocked 9)
    (after (step s) s).host.results = [] ∧ (after (step u) u).host.results = [] := by decide

/-- R147: the blocking write's task is noted at the last tick of its wait and not before. -/
theorem test_elapsed : (tick (blocked 1)).host.elapsed = [5] ∧ (tick (blocked 2)).host.elapsed = [] := by decide

/-- R162, R165: slot 65408 is at BLOCK_BASE + 0x20000, past the window; slot 65407 is the last one inside. -/
theorem test_fill_past_window :
    (HostAddr.absolute ((launch 2726).blockBase + offsetOfSlot 65408)).resolve (launch 2726) = none
    ∧ (HostAddr.absolute ((launch 2726).blockBase + offsetOfSlot 65407)).resolve (launch 2726) = some 0x1FFFE := by
  decide

/-- R169: a faulted state in which the host has stopped and the pass runs on is pending as well. -/
theorem test_pending :
    let s := { flying .idle with fault := true, seq := { (at1 .idle).seq with phase := .gap, cnt := 9, slot := 24 } }
    pending s = true ∧ faulted s = true ∧ finished s = false := by decide

/-! ### Witnesses: states and operands that meet each statement's hypotheses -/

/-- A buffer of 24 ZERO_CODE slots. -/
def zeros : FrameBuffer :=
  { powerOn := 0, cells := (List.range 48).map (fun a => (a, if a % 2 = 0 then 0x06#8 else 0x80#8)) }

/-- The agenda of V2.2's good word, behind nothing. -/
def begun : State := { at1 .idle with agenda := [cmd 0x02000000#64] }

theorem witness_DecodeAndEncodeAgree : (Instr.push 255 0 128).wellFormed = true
    ∧ decode 0x03FF0080#32 = .ok (.push 255 0 128) := by decide

theorem witness_DecodeFollowsOpcodeMap : decode 0x07000000#32 = .ok .cancel
    ∧ (⟨0x07000000#32, 0xFFFFFFFF#32⟩ : OpcodeRow) ∈ opcodeMap
    ∧ rowSelects ⟨0x07000000#32, 0xFFFFFFFF#32⟩ 0x07000000#32 = true := by decide

theorem witness_IllegalWordsHaveNoCommand : (opcodeOf 0x00FFFFFF#32).toNat = 0 ∧ (opcodeOf 0x08000000#32).toNat = 8
    ∧ opcodeOf 0x07000001#32 ≠ 0x03#8 ∧ operandOf 0x07000001#32 ≠ 0#24 := by decide

theorem witness_ChunkSlotsCarryGreenRedBlue : (0 : Nat) < 8 ∧ (7 : Nat) < 8 := by decide

/-- R103: the nearest integer to the ticks of 400 ns. -/
theorem witness_TimingConstants : 16 * 400 ≤ 1000 * 6 + 500 ∧ 1000 * 6 ≤ 16 * 400 + 500 := by decide

theorem witness_StepRunsDeliveredCommand :
    nextEvent begun begun.agenda = some (.host 5 (.store (.window 0#17) 4 0x02000000#64), [])
    ∧ (HostAddr.window 0#17).resolve begun.cfg = some 0
    ∧ decode ((0x02000000#64 : BusData).setWidth 32) = .ok .beginFrame := by decide

theorem witness_StepRaisesIllegalCommand :
    let s := { at1 .idle with agenda := [cmd 0x08000000#64] }
    nextEvent s s.agenda = some (.host 5 (.store (.window 0#17) 4 0x08000000#64), [])
    ∧ (HostAddr.window 0#17).resolve s.cfg = some 0
    ∧ 8 ≤ (opcodeOf ((0x08000000#64 : BusData).setWidth 32)).toNat ∧ s.fault = false
    ∧ (opcodeOf ((0x00000001#64 : BusData).setWidth 32)).toNat = 0
    ∧ opcodeOf ((0x04000001#64 : BusData).setWidth 32) ≠ 0x03#8
    ∧ operandOf ((0x04000001#64 : BusData).setWidth 32) ≠ 0#24 := by decide

theorem witness_PlacedWordRunsNext : decodeTableWord 32 0x03010203 = some (.push 1 2 3) := by decide

theorem witness_ClockTicksOtherwise : nextEvent (at1 .idle) (at1 .idle).agenda = none
    ∧ nextEvent (blocked 3) [cmd 1#64, .tick] = some (.tick, [cmd 1#64]) := by decide

theorem witness_BlockedHostHasNoStep : (blocked 3).host.blocked = true ∧ powersOn (blocked 3) = false
    ∧ step (blocked 3) = .next (tick (blocked 3)) := ⟨rfl, rfl, rfl⟩

/-- A faulted, blocked block whose timer failed: power-on reset is the way out (R146, R188). -/
theorem witness_PowerOnResetsTheBlock :
    let s := { blocked 3 with fault := true, timer := { remain := 3, failed := true }, agenda := [cmd 1#64, .powerOn] }
    nextEvent s s.agenda = some (.powerOn, [cmd 1#64]) := by decide

/-- R168, R200: in mid-pass the reset has no step; the clock's tick comes. -/
theorem test_no_reset_in_pass :
    let s := { flying .transmitting with seq := { (at1 .idle).seq with phase := .bits }, agenda := [.powerOn, .tick] }
    nextEvent s s.agenda = some (.tick, [.powerOn]) := by decide

/-- R42: STATUS and the line after a power-on reset from a fault. -/
theorem test_reset_clears_fault :
    let s := { at1 .idle with fault := true, fcode := 4#4, agenda := [.powerOn] }
    statusWord (after (step s) s) = 0#32 ∧ (after (step s) s).line = .high ∧ (after (step s) s).binding = none := by
  decide

theorem witness_SuspendedTaskHasNoStep : (asleep 3).host.suspended = some 5 := by decide

/-- A step of task 6 behind one of task 5, which sleeps. -/
theorem witness_OtherTasksMayStep :
    let s := { asleep 3 with agenda := [cmd 0x06000000#64, .host 6 (.load (.window 4#17) 4), .tick] }
    s.host.blocked = false ∧ s.host.suspended ≠ some 6
    ∧ (∀ e ∈ [cmd 0x06000000#64], ∃ t o, e = .host t o ∧ s.host.suspended = some t)
    ∧ s.agenda = [cmd 0x06000000#64] ++ .host 6 (.load (.window 4#17) 4) :: [.tick] :=
  ⟨rfl, by decide, fun e he => ⟨5, .store (.window 0#17) 4 0x06000000#64, by simpa [cmd] using he, rfl⟩, rfl⟩

theorem witness_InitConstructsTheBlock : (State.resetWith (launch 1)).fault = false
    ∧ (State.resetWith (launch 1)).owner = .uninit ∧ configOk (launch 1) = true := by decide

/-- Each clause of CONFIG_OK fails alone at its edge. -/
theorem witness_ConfigOkClauses : configOk (launch 1365) = true ∧ configOk (launch 0) = false
    ∧ configOk (launch 1366) = false ∧ configOk { launch 1 with maxGapTicks := 4319 } = false
    ∧ configOk { launch 1 with maxGapTicks := 4320 } = true ∧ configOk { launch 1 with pinValid := false } = false := by
  decide

theorem witness_BeginStartsFrame : (at1 .idle).fault = false ∧ (at1 .idle).owner = .idle := by decide

theorem witness_PushEncodesOneColour : (at1 .encoding).fault = false ∧ (at1 .encoding).owner = .encoding
    ∧ (at1 .encoding).cursor ≠ (at1 .encoding).cfg.ledCount := by decide

theorem witness_TrigStartsThePass : (at1 .encoding).fault = false ∧ (at1 .encoding).owner = .encoding
    ∧ refuses (at1 .encoding) = false := by decide

theorem witness_TrigIsRejected :
    let s := { at1 .encoding with seq := { (at1 .idle).seq with phase := .gap, cnt := 4320 } }
    let u := { at1 .encoding with cfg := { launch 1 with trigMayRefuse := true } }
    (s.fault = false ∧ s.owner = .encoding ∧ s.seq.phase ≠ .off)
    ∧ (u.fault = false ∧ u.owner = .encoding ∧ u.seq.phase = .off ∧ u.cfg.trigMayRefuse = true) := by decide

theorem witness_WaitbBlocksTheHost : (flying .transmitting).fault = false
    ∧ (flying .transmitting).owner = .transmitting := by decide

theorem witness_WaitsSuspendsTheTask : (flying .transmitting).fault = false
    ∧ (flying .transmitting).owner = .transmitting := by decide

theorem witness_CancelEndsSuspendingWait : (asleep 1).fault = false ∧ (asleep 1).owner = .waiting
    ∧ (asleep 1).wmode = .suspending ∧ (asleep 1).host.suspended = some 5 := by decide

theorem witness_OwnChecksRaise :
    let s := { at1 .encoding with cursor := 1 }
    let u := State.resetWith (launch 0)
    (s.fault = false ∧ s.owner = .encoding ∧ s.cursor = s.cfg.ledCount)
    ∧ (u.fault = false ∧ u.owner = .uninit ∧ configOk u.cfg = false) := by decide

theorem witness_IllegalStateRaises : (blocked 1).fault = false ∧ legal .cancel (blocked 1) = false
    ∧ legal .init (blocked 1) = false ∧ legal .beginFrame (blocked 1) = false
    ∧ legal (.push 1 2 3) (blocked 1) = false ∧ legal .trig (blocked 1) = false ∧ legal .waitb (blocked 1) = false
    ∧ legal .waits (blocked 1) = false := by decide

theorem witness_OwnershipMovesAlongTheCycle : powersOn (blocked 1) = false ∧ step (blocked 1) = .next (tick (blocked 1)) ∧ (tick (blocked 1)).owner = .idle :=
  ⟨rfl, rfl, by decide⟩

theorem witness_FirstFaultSticks :
    let s := { blocked 9 with fault := true, fcode := 4#4 }
    let u := { s with agenda := [.powerOn] }
    (step s = .next (tick s) ∧ s.fault = true ∧ powersOn s = false)
    ∧ (step u = .next (powerOnReset [] u) ∧ u.fault = true ∧ powersOn u = true) :=
  ⟨⟨rfl, rfl, rfl⟩, rfl, rfl, rfl⟩

theorem witness_OnlyBeginAndTrigWriteResult :
    step { begun with result := .ok } = .next (startFrame (hostTurn 5 [] { begun with result := .ok }))
    ∧ (startFrame (hostTurn 5 [] { begun with result := .ok })).result ≠ { begun with result := .ok }.result :=
  ⟨rfl, by decide⟩

/-- The host's part of the invariant, as the second clause of the fixed binding asks. -/
theorem witness_ConfigurationAndBindingAreFixed : HostInv (blocked 9) ∧ (blocked 9).binding ≠ none
    ∧ powersOn (blocked 9) = false ∧ step (blocked 9) = .next (tick (blocked 9)) :=
  ⟨⟨by decide, by decide, by decide, by decide, by decide⟩, by decide, rfl, rfl⟩

/-- A PUSH of white over ZERO_CODEs. -/
theorem witness_BufferChangesOnlyByPushOrIdleStore_push :
    let s := { at1 .encoding with buf := zeros, agenda := [cmd 0x03FFFFFF#64] }
    powersOn s = false ∧ step s = .next (encodeColour 255 255 255 (hostTurn 5 [] s))
    ∧ readByte (encodeColour 255 255 255 (hostTurn 5 [] s)).buf 46 ≠ readByte s.buf 46 := ⟨rfl, rfl, by decide⟩

/-- A store of 0xFFFF to slot 0 in IDLE over a ZERO_CODE. -/
theorem witness_BufferChangesOnlyByPushOrIdleStore :
    let s := { at1 .idle with buf := zeros, agenda := [.host 5 (.store (.window 0x100#17) 2 0xFFFF#64)] }
    powersOn s = false ∧ step s = .next (storeSlot 0 0xFFFF#16 (hostTurn 5 [] s))
    ∧ readByte (storeSlot 0 0xFFFF#16 (hostTurn 5 [] s)).buf 0 ≠ readByte s.buf 0 := ⟨rfl, rfl, by decide⟩

theorem witness_NoStepStopsAPass :
    let s := { flying .waiting with seq := { (at1 .idle).seq with phase := .gap, cnt := 1, slot := 24 } }
    step s = .next (tick s) ∧ s.seq.phase ≠ .off := ⟨rfl, by decide⟩

/-- Duty 20 is canonical and duty 21 is not; a tick that sends a sentinel (marker 0). -/
theorem witness_LevelWithinAPeriod :
    ((0x8014#16).getLsbD 15 = true ∧ ((0x8014#16).extractLsb' 0 15).toNat ≤ 20)
    ∧ ¬((0x8015#16).getLsbD 15 = true ∧ ((0x8015#16).extractLsb' 0 15).toNat ≤ 20)
    ∧ (let s := { flying .waiting with seq := { (at1 .idle).seq with phase := .bits, tick := 19, word := 0x0000#16 } }
      s.seq.phase = .bits ∧ canonical s.seq.word = false) := by decide

theorem witness_LineIsLowOutsideBits : (at1 .idle).binding ≠ none ∧ (at1 .idle).seq.phase ≠ .bits := by decide

/-- The last tick of a gap in IDLE, after CANCEL. -/
theorem witness_SequencerWritesOnlyItsOwn :
    let s := { flying .idle with seq := { (at1 .idle).seq with phase := .gap, cnt := 1, slot := 24 } }
    ¬(s.owner = .waiting ∧ s.timer.failed = false) := by decide

/-- The hypotheses on the trigger, and for each clause the first or last tick it speaks of (three ticks of latency). -/
theorem witness_TimelineOfAPass :
    let s := { at1 .encoding with cfg := { launch 1 with startLatency := 3 } }
    s.fault = false ∧ s.owner = .encoding ∧ refuses s = false ∧ 1 ≤ s.cfg.ledCount
    ∧ exec .trig s = .next (acceptTrigger s)
    ∧ (2 : Nat) < s.cfg.startLatency
    ∧ ((23 : Nat) < 24 * s.cfg.ledCount ∧ (19 : Nat) < 20 ∧ 482 = s.cfg.startLatency + 20 * 23 + 19)
    ∧ (s.cfg.startLatency + 480 * s.cfg.ledCount ≤ 483 ∧ 4802 < s.cfg.startLatency + 480 * s.cfg.ledCount + 4320)
    ∧ s.cfg.startLatency + 480 * s.cfg.ledCount + 4320 ≤ 4803 :=
  ⟨rfl, rfl, rfl, by decide, rfl, by decide, by decide, by decide, by decide⟩

theorem witness_FrameWaveform :
    let s := { at1 .encoding with buf := zeros }
    s.fault = false ∧ s.owner = .encoding ∧ refuses s = false ∧ 1 ≤ s.cfg.ledCount
    ∧ (∀ i, i < capacity s.cfg → canonical (readSlot s.buf i) = true)
    ∧ exec .trig s = .next (acceptTrigger s) :=
  ⟨rfl, rfl, rfl, by decide, by decide, rfl⟩

/-- A slot that is dirty, one that is not, slots on both sides of the one that is sent, and the gap's last tick; the last tick
of LAT, and in BITS the last tick of a slot with a further slot, dirty or not, and the tick before. -/
theorem witness_DirtySlotsLatchFreeValues :
    let s := { at1 .encoding with seq := { (at1 .idle).seq with phase := .bits, slot := 5, dirty := [6] } }
    6 ∈ s.seq.dirty ∧ 5 ∉ s.seq.dirty ∧ unlatched s.seq 6 = true ∧ unlatched s.seq 5 = false
    ∧ unlatched { s.seq with phase := .lat } 0 = true
    ∧ (let u := { s with seq := { s.seq with phase := .gap, cnt := 1 } }; u.seq.phase = .gap ∧ u.seq.cnt = 1)
    ∧ (let u := { s with seq := { s.seq with phase := .lat, cnt := 1, dirty := [0] } }; u.seq.phase = .lat ∧ u.seq.cnt = 1
      ∧ 0 ∈ u.seq.dirty)
    ∧ (let u := { s with seq := { s.seq with tick := 19 } }; u.seq.phase = .bits ∧ u.seq.tick = 19
      ∧ u.seq.slot + 1 ≠ capacity u.cfg ∧ u.seq.slot + 1 ∈ u.seq.dirty)
    ∧ (let u := { s with seq := { s.seq with slot := 22, tick := 19 } }; u.seq.tick = 19
      ∧ u.seq.slot + 1 ≠ capacity u.cfg ∧ u.seq.slot + 1 ∉ u.seq.dirty)
    ∧ (let u := { s with seq := { s.seq with tick := 18 } }; u.seq.phase = .bits ∧ u.seq.tick ≠ 19) := by decide

/-- The state before the second pass of P3: 4320 LOW ticks, the sequencer off after a whole pass, a trigger next. -/
def secondPass : State :=
  { at1 .encoding with
    seq := { (at1 .idle).seq with slot := 24 }
    trace := List.replicate 4320 .low
    agenda := [cmd 0x04000000#64] }

theorem lowRun_secondPass : lowRun secondPass = 4320 := by
  have h : secondPass.trace = List.replicate 4320 .low := rfl
  rw [lowRun, h, List.takeWhile_replicate, if_pos (by decide), List.length_replicate]

theorem inv_secondPass : Inv secondPass :=
  ⟨⟨by decide, by decide, by decide, by decide, by decide, by decide⟩,
    ⟨by decide, by decide, by decide, by decide, by decide, by decide, by decide, by decide, by decide, by decide⟩,
    ⟨by decide, by decide⟩, ⟨by decide, by decide, by decide, by decide, by decide⟩⟩

theorem witness_ResetGapSeparatesFrames : Inv secondPass ∧ GapInv secondPass
    ∧ step secondPass = .next (acceptTrigger (hostTurn 5 [] secondPass)) ∧ secondPass.seq.phase ≠ .bits
    ∧ (acceptTrigger (hostTurn 5 [] secondPass)).seq.phase = .bits ∧ secondPass.seq.slot ≠ 0 :=
  ⟨inv_secondPass,
    ⟨by decide, fun _ _ => by rw [lowRun_secondPass]; decide, by decide⟩, rfl, by decide, by decide, by decide⟩

theorem witness_WaitLastsExactlyTheDelay :
    let s := flying .transmitting
    s.fault = false ∧ s.owner = .transmitting ∧ s.cfg.timerMayFail = false ∧ s.timer.failed = false
    ∧ exec .waitb s = .next (blockHost (startWait .blocking s))
    ∧ exec .waits s = .next (suspendTask (startWait .suspending s)) := ⟨rfl, rfl, rfl, rfl, rfl, rfl⟩

/-- A start latency of 1 and no tick between the trigger and the wait: the side of the margin that fails. -/
theorem witness_CompletionDelayHasZeroMargin :
    let s := { at1 .encoding with cfg := { launch 1 with startLatency := 1 } }
    s.fault = false ∧ s.owner = .encoding ∧ refuses s = false ∧ 1 ≤ s.cfg.ledCount ∧ s.cfg.timerMayFail = false
    ∧ s.timer.failed = false ∧ exec .trig s = .next (acceptTrigger s)
    ∧ exec .waitb (ticks 0 (acceptTrigger s)) = .next (blockHost (startWait .blocking (acceptTrigger s)))
    ∧ ¬ s.cfg.startLatency ≤ 0 := ⟨rfl, rfl, rfl, by decide, rfl, rfl, rfl, rfl, by decide⟩

/-- A failed timer; one that may fail, whose draw decides; and with 2 or 1 ticks to go one that may or may not fail. -/
theorem witness_TimerFailureHangsTheWait :
    let s := { blocked 9 with timer := { remain := 9, failed := true } }
    let u (r : Nat) (f : Bool) := { blocked r with cfg := { launch 1 with timerMayFail := f } }
    (s.owner = .waiting ∧ s.timer.failed = true)
    ∧ ∀ f, ((u 2 f).owner = .waiting ∧ (u 2 f).timer.failed = false ∧ (u 2 f).timer.remain - 1 ≠ 0)
      ∧ ((u 1 f).owner = .waiting ∧ (u 1 f).timer.failed = false ∧ (u 1 f).timer.remain - 1 = 0) := by
  decide

theorem witness_GapEndAndExpiryShareATick :
    let s := { blocked 1 with seq := { (at1 .idle).seq with phase := .gap, cnt := 1, slot := 24 } }
    s.seq.phase = .gap ∧ s.seq.cnt = 1 ∧ s.owner = .waiting ∧ s.timer.remain = 1 ∧ s.timer.failed = false
    ∧ s.cfg.timerMayFail = false := by decide

/-- The five cases at the ends of their ranges, and the legal accesses beside them. -/
theorem witness_AccessCheckCases : (at1 .idle).fault = false ∧ accessOk (launch 1) .load 0x034 4 = false ∧ accessOk (launch 1) .load 0x0FF 4 = false
    ∧ accessOk (launch 1) .load 0x130 2 = false ∧ accessOk (launch 1) .load 0x030 2 = false
    ∧ accessOk (launch 1) .load 0x100 4 = false ∧ accessOk (launch 1) .load 0x000 4 = false
    ∧ accessOk (launch 1) .store 0x004 4 = false ∧ accessOk (launch 1) .store 0x030 4 = false
    ∧ accessOk (launch 1) .store 0x000 4 = true ∧ accessOk (launch 1) .load 0x030 4 = true
    ∧ accessOk (launch 1) .load 0x100 2 = true ∧ accessOk (launch 1) .store 0x12E 2 = true := by decide

/-- The first and the last register of the list. -/
theorem witness_RegisterLoadsReturnTheMap :
    (0x004, statusWord (at1 .idle)) ∈ [(0x004, statusWord (at1 .idle)), (0x030, 16#32)]
    ∧ (0x030, 16#32) ∈ [(0x004, statusWord (at1 .idle)), (0x030, 16#32)] := by decide

theorem witness_SlotAccessesInIdle : (at1 .idle).fault = false ∧ (at1 .idle).owner = .idle
    ∧ (23 : Nat) < 24 * (at1 .idle).cfg.ledCount := by decide

theorem witness_SlotAccessOutsideIdleRaises : (at1 .encoding).fault = false ∧ (at1 .encoding).owner ≠ .idle
    ∧ (23 : Nat) < 24 * (at1 .encoding).cfg.ledCount := by decide

theorem witness_FaultedBlockGoesOn : { at1 .idle with fault := true }.fault = true
    ∧ (23 : Nat) < 24 * (at1 .idle).cfg.ledCount ∧ 4 ≤ 0x030 ∧ 0x030 % 4 = 0
    ∧ accessOk (at1 .idle).cfg .load 0x000 4 = false := by decide

/-- Both ends of the window, the addresses just outside, and a load and a store next on the agenda. -/
theorem witness_OnlyTheWindowBelongsToTheBlock :
    (HostAddr.absolute 0x40000000).resolve (launch 1) = some 0
    ∧ (HostAddr.absolute 0x4001FFFF).resolve (launch 1) = some 0x1FFFF
    ∧ (HostAddr.absolute 0x3FFFFFFF).resolve (launch 1) = none
    ∧ (HostAddr.absolute 0x40020000).resolve (launch 1) = none
    ∧ nextEvent (at1 .idle) [.host 5 (.load (.absolute 0x40000004) 4)]
      = some (.host 5 (.load (.absolute 0x40000004) 4), [])
    ∧ nextEvent (at1 .idle) [.host 5 (.store (.window 0x100#17) 2 1#64)]
      = some (.host 5 (.store (.window 0x100#17) 2 1#64), []) := by decide

/-- The branch after a rejected and after an accepted trigger. -/
theorem witness_WriteBranchesOnResult_branch :
    let s := { at1 .idle with result := .triggerError, agenda := [.host 5 (.checkResult .blocking)] }
    let u := { flying .transmitting with agenda := [.host 5 (.checkResult .suspending)] }
    (nextEvent s s.agenda = some (.host 5 (.checkResult .blocking), []) ∧ s.result = .triggerError)
    ∧ (nextEvent u u.agenda = some (.host 5 (.checkResult .suspending), []) ∧ u.result ≠ .triggerError) := by decide

/-- A write that ends after its delay, which changes the results. -/
theorem witness_WriteBranchesOnResult_end :
    let s := { at1 .idle with host := { (at1 .idle).host with elapsed := [5] }, agenda := [.host 5 (.finishWrite .ok)] }
    nextEvent s s.agenda = some (.host 5 (.finishWrite .ok), [])
    ∧ step s = .next (recordResult .ok (hostTurn 5 [] s))
    ∧ (recordResult .ok (hostTurn 5 [] s)).host.results ≠ s.host.results := ⟨rfl, rfl, by decide⟩

/-- The last tick of a wait, after which its task is noted. -/
theorem witness_WriteBranchesOnResult_elapsed :
    step (asleep 1) = .next (tick (asleep 1)) ∧ 5 ∈ (tick (asleep 1)).host.elapsed ∧ 5 ∉ (asleep 1).host.elapsed :=
  ⟨rfl, by decide, by decide⟩

/-- A full frame of two colours, and a frame of one on two LEDs. -/
theorem witness_EncodedColoursDecode :
    let s := { at1 .idle with cfg := launch 2 }
    s.fault = false ∧ s.owner = .idle ∧ [(⟨1, 2, 3⟩ : Color), ⟨4, 5, 6⟩].length ≤ s.cfg.ledCount
    ∧ exec .beginFrame s = .next (startFrame s) ∧ [(⟨1, 2, 3⟩ : Color), ⟨4, 5, 6⟩][1]? = some ⟨4, 5, 6⟩ :=
  ⟨rfl, rfl, by decide, rfl, rfl⟩

theorem witness_UnfilledTailIsKept :
    let s := { at1 .idle with cfg := launch 2 }
    s.fault = false ∧ s.owner = .idle ∧ [(⟨1, 2, 3⟩ : Color)].length ≤ s.cfg.ledCount
    ∧ exec .beginFrame s = .next (startFrame s) ∧ 48 * [(⟨1, 2, 3⟩ : Color)].length ≤ 48 :=
  ⟨rfl, rfl, by decide, rfl, by decide⟩

/-- Two states that differ in RESULT and CURSOR. -/
theorem witness_EncodingIsDeterministic :
    let s₁ := at1 .idle
    let s₂ := { at1 .idle with result := .ok, cursor := 1 }
    s₁.fault = false ∧ s₂.fault = false ∧ s₁.owner = .idle ∧ s₂.owner = .idle ∧ s₁.cfg.ledCount = s₂.cfg.ledCount
    ∧ [(⟨1, 2, 3⟩ : Color)].length ≤ s₁.cfg.ledCount ∧ (∀ a, readByte s₁.buf a = readByte s₂.buf a)
    ∧ exec .beginFrame s₁ = .next (startFrame s₁) ∧ exec .beginFrame s₂ = .next (startFrame s₂) :=
  ⟨rfl, rfl, rfl, rfl, rfl, by decide, fun _ => rfl, rfl, rfl⟩

theorem witness_StepKeepsTheInvariant : Inv secondPass
    ∧ step secondPass = .next (acceptTrigger (hostTurn 5 [] secondPass)) := ⟨inv_secondPass, rfl⟩

theorem witness_ReachableStatesMeetR41 : Reachable (loaded (launch 1) [cmd 0x01000000#64]) :=
  ⟨launch 1, [cmd 0x01000000#64], 0, rfl⟩

end Sys2Proof.Tests
end

section
/-! PROOFS. Which event a step takes when the clock is what steps next (R14, R214). -/

namespace Sys2Proof.Machine

/-- With no event of the agenda enabled, the clock ticks and the agenda stays (R214, log 2). -/
theorem step_of_nextEvent_eq_none {s : State} (h : nextEvent s s.agenda = none) :
    step s = .next (tick s) := by
  unfold step nextStep
  rw [h]

/-- A listed tick that comes next is taken off the agenda before the clock ticks (log 2). -/
theorem step_of_nextEvent_eq_tick {s : State} {rest : List Event}
    (h : nextEvent s s.agenda = some (.tick, rest)) : step s = .next (tick (setAgenda rest s)) := by
  unfold step nextStep
  rw [h]

/-- Settles O12: each clause is the branch of the step that its next event selects. -/
theorem clockTicksOtherwise : Obligations.ClockTicksOtherwise := by
  unfold Obligations.ClockTicksOtherwise
  intro s rest
  exact ⟨step_of_nextEvent_eq_none, step_of_nextEvent_eq_tick⟩

end Sys2Proof.Machine
end

section
/-! PROOFS. Which rule a step follows, by its next event, and what its commands and host steps leave alone (R14, R150, R182). -/

namespace Sys2Proof.Machine

open Sys2Proof.Safety

/-! ### The step by its next event -/

theorem step_of_nextEvent_eq_powerOn {s : State} {rest : List Event}
    (h : nextEvent s s.agenda = some (.powerOn, rest)) : step s = .next (powerOnReset rest s) := by
  unfold step nextStep
  rw [h]

theorem step_of_nextEvent_eq_host {s : State} {task : Nat} {op : HostOp} {rest : List Event}
    (h : nextEvent s s.agenda = some (.host task op, rest)) : step s = runHostOp op (hostTurn task rest s) := by
  unfold step nextStep
  rw [h]

theorem powersOn_iff {s : State} : powersOn s = true ↔ ∃ rest, nextEvent s s.agenda = some (.powerOn, rest) := by
  unfold powersOn
  split <;> simp_all

/-- A power-on reset that comes next is the whole step (R200). -/
theorem eq_powerOnReset_of_powersOn {s t : State} (hp : powersOn s = true) (h : step s = .next t) :
    ∃ rest, t = powerOnReset rest s := by
  obtain ⟨rest, hn⟩ := powersOn_iff.mp hp
  rw [step_of_nextEvent_eq_powerOn hn] at h
  injection h with h
  exact ⟨rest, h.symm⟩

/-- Power-on reset apart, a step is a tick or a host step (R14). -/
theorem step_cases_of_not_powersOn {s t : State} (hp : powersOn s = false) (h : step s = .next t) :
    (∃ rest, t = tick (setAgenda rest s))
      ∨ ∃ task op rest, nextEvent s s.agenda = some (.host task op, rest)
          ∧ HostEffect op (hostTurn task rest s) t := by
  rcases step_cases h with ht | hh | ⟨rest, hn, -⟩
  · exact .inl ht
  · exact .inr hh
  · rw [powersOn_iff.mpr ⟨rest, hn⟩] at hp
    exact absurd hp (by decide)

/-- R36: a host step comes next only while no WAITB blocks the host. -/
theorem not_blocked_of_nextEvent_host {s : State} {task : Nat} {op : HostOp} {rest : List Event}
    (h : nextEvent s s.agenda = some (.host task op, rest)) : s.host.blocked = false := by
  have he := nextEvent_enabled h
  simp only [enabled, Bool.and_eq_true, Bool.not_eq_true'] at he
  exact he.1

/-! ### The fields that PUSH's effect leaves alone (R110, R112) -/

section
variable (r g b : Byte) (s : State)

@[simp] theorem encodeColour_cfg : (encodeColour r g b s).cfg = s.cfg := by rw [encodeColour_frame]
@[simp] theorem encodeColour_owner : (encodeColour r g b s).owner = s.owner := by rw [encodeColour_frame]
@[simp] theorem encodeColour_wmode : (encodeColour r g b s).wmode = s.wmode := by rw [encodeColour_frame]
@[simp] theorem encodeColour_result : (encodeColour r g b s).result = s.result := by rw [encodeColour_frame]
@[simp] theorem encodeColour_fault : (encodeColour r g b s).fault = s.fault := by rw [encodeColour_frame]
@[simp] theorem encodeColour_fcode : (encodeColour r g b s).fcode = s.fcode := by rw [encodeColour_frame]
@[simp] theorem encodeColour_cursor : (encodeColour r g b s).cursor = s.cursor + 1 := by rw [encodeColour_frame]
@[simp] theorem encodeColour_timer : (encodeColour r g b s).timer = s.timer := by rw [encodeColour_frame]
@[simp] theorem encodeColour_host : (encodeColour r g b s).host = s.host := by rw [encodeColour_frame]
@[simp] theorem encodeColour_binding : (encodeColour r g b s).binding = s.binding := by rw [encodeColour_frame]

theorem encodeColour_seq :
    (encodeColour r g b s).seq = { s.seq with dirty := (encodeColour r g b s).seq.dirty } := by
  conv_lhs => rw [encodeColour_frame]

end

/-! ### What a command and a host step leave alone -/

/-- While FAULT = 1 every command is ignored (R182). -/
theorem exec_of_fault {i : Instr} {s : State} (h : s.fault = true) : exec i s = .next s := by
  rcases exec_cases (rfl : exec i s = _) with ⟨-, ho⟩ | ⟨hf, -⟩ | ⟨hf, -⟩
  · exact ho
  · simp [h] at hf
  · simp [h] at hf

/-- No command changes the parameters (R38). -/
theorem CommandEffect.cfg_eq {u t : State} {i : Instr} (h : CommandEffect u i t) : t.cfg = u.cfg := by
  cases h <;> simp

/-- INIT alone binds, and only in UNINIT (R160). -/
theorem CommandEffect.binding_eq {u t : State} {i : Instr} (h : CommandEffect u i t) (ho : u.owner ≠ .uninit) :
    t.binding = u.binding := by
  cases h
  case init hu _ => exact absurd hu ho
  all_goals simp

/-- BEGIN and TRIG alone write RESULT (R27). -/
theorem CommandEffect.result_cases {u t : State} {i : Instr} (h : CommandEffect u i t) :
    t.result = u.result ∨ (i = .beginFrame ∧ t.result = .none)
      ∨ (i = .trig ∧ t.result = if refuses u then .triggerError else .ok) := by
  cases h
  case beginFrame => exact .inr (.inl ⟨rfl, rfl⟩)
  case accept hr => exact .inr (.inr ⟨rfl, by simp [hr]⟩)
  case reject hr => exact .inr (.inr ⟨rfl, by simp [hr]⟩)
  all_goals exact .inl (by simp)

theorem HostEffect.cfg_eq {op : HostOp} {u t : State} (h : HostEffect op u t) : t.cfg = u.cfg := by
  cases h
  case command ht => exact ht.cfg_eq
  case returned hu _ => obtain rfl | ⟨r, rfl⟩ := hu <;> rfl
  all_goals rfl

theorem HostEffect.binding_eq {op : HostOp} {u t : State} (h : HostEffect op u t) (ho : u.owner ≠ .uninit) :
    t.binding = u.binding := by
  cases h
  case command ht => exact ht.binding_eq ho
  case returned hu _ => obtain rfl | ⟨r, rfl⟩ := hu <;> rfl
  all_goals rfl

/-- A host step on a faulted block leaves FAULT and FCODE (R28, R182). -/
theorem HostEffect.fault_eq {op : HostOp} {u t : State} (h : HostEffect op u t) (hf : u.fault = true) :
    t.fault = true ∧ t.fcode = u.fcode := by
  cases h
  case raised h => simp [hf] at h
  case stored h _ _ => simp [hf] at h
  case command h _ => simp [hf] at h
  case returned hu _ => obtain rfl | ⟨r, rfl⟩ := hu <;> exact ⟨hf, rfl⟩
  all_goals exact ⟨hf, rfl⟩

/-- A host step that changes RESULT delivers BEGIN or TRIG to CMD (R27). -/
theorem HostEffect.result_cases {op : HostOp} {u t : State} (h : HostEffect op u t) (hr : t.result ≠ u.result) :
    ∃ a v i, op = .store a 4 v ∧ a.resolve u.cfg = some 0 ∧ decode (v.setWidth 32) = .ok i
      ∧ ((i = .beginFrame ∧ t.result = .none)
        ∨ (i = .trig ∧ t.result = if refuses u then .triggerError else .ok)) := by
  cases h
  case command a v i hop ha hd _ ht => exact ⟨a, v, i, hop, ha, hd, ht.result_cases.resolve_left hr⟩
  case returned hu _ => obtain rfl | ⟨r, rfl⟩ := hu <;> exact absurd rfl hr
  all_goals exact absurd rfl hr

/-- Once FAULT = 1, the timer's half of a tick leaves FAULT and FCODE (R28). -/
theorem tickTimer_fault_eq {s : State} (hf : s.fault = true) :
    (tickTimer s).fault = true ∧ (tickTimer s).fcode = s.fcode := by
  rcases tickTimer_cases s with ⟨h, -⟩ | ⟨-, -, ⟨h, -⟩ | ⟨h, -⟩ | ⟨h, -⟩⟩ <;> rw [h] <;> simp [hf]

theorem tick_fault_eq {s : State} (hf : s.fault = true) :
    (tick s).fault = true ∧ (tick s).fcode = s.fcode := by
  simpa [tick] using tickTimer_fault_eq (s := tickSeq s) (by simpa using hf)

/-- No step changes the parameters (R38, log 4). -/
theorem step_cfg_eq {s t : State} (h : step s = .next t) : t.cfg = s.cfg := by
  obtain ⟨rest, rfl⟩ | ⟨task, op, rest, -, he⟩ | ⟨rest, -, rfl⟩ := step_cases h
  · exact tick_cfg (setAgenda rest s)
  · exact he.cfg_eq
  · rfl

/-- Latching a slot leaves the line alone (R124). -/
theorem latchSlot_line (i : Nat) (s : State) : (latchSlot i s).line = s.line := by
  obtain ⟨w, n, h⟩ := latchSlot_frame i s
  rw [h]

/-! ### A command delivered to CMD (R164) -/

/-- A store to CMD of a word that decodes runs its command; while FAULT = 1 both are ignored (R164, R182). -/
theorem busStore_command {a : HostAddr} {v : BusData} {i : Instr} {u : State} (ha : a.resolve u.cfg = some 0)
    (hd : decode (v.setWidth 32) = .ok i) : busStore a 4 v u = exec i u := by
  have hdeliver : busStore a 4 v u = deliver (v.setWidth 32) u := by
    simp [busStore, ha, memWrite]
  rw [hdeliver, deliver, hd]
  split
  · rename_i hf
    exact (exec_of_fault hf).symm
  · rfl

theorem decode_tableWord {nbits w : Nat} {i : Instr} (h : decodeTableWord nbits w = some i) :
    decode (tableWord nbits w) = .ok i := by
  unfold decodeTableWord at h
  unfold tableWord
  split at h
  · split at h
    · rename_i hd
      injection h with h
      exact h ▸ hd
    · cases h
  · cases h

/-- The free task is not the suspended one (R142). -/
theorem suspended_ne_freeTask (h : HostAgent) : h.suspended ≠ some (freeTask h) := by
  unfold freeTask
  cases h.suspended <;> simp

/-- The placed command comes next, whatever the agenda holds behind it (log 20). -/
theorem nextEvent_placeCommand (w : Word) (s : State) :
    nextEvent (placeCommand w s) (placeCommand w s).agenda
      = some (.host (freeTask s.host) (.store (.window 0#17) 4 (w.setWidth 64)), s.agenda) := by
  have hfree := suspended_ne_freeTask s.host
  simp [placeCommand, nextEvent, enabled, hfree]

/-! ### STATUS and DELAY_US -/

/-- Fields one behind another, read back from the low end. -/
theorem fields_of_append (f : BitVec 4) (z : BitVec 1) (b : Bool) (r : BitVec 2) (w : BitVec 1) (o : BitVec 3) :
    let x := 0#20 ++ f ++ z ++ BitVec.ofBool b ++ r ++ w ++ o
    x.extractLsb' 0 3 = o ∧ x.extractLsb' 3 1 = w ∧ x.extractLsb' 4 2 = r ∧ x.getLsbD 6 = b
      ∧ x.getLsbD 7 = z.getLsbD 0 ∧ x.extractLsb' 8 4 = f ∧ x.extractLsb' 12 20 = 0#20 := by
  intro x
  simp (disch := decide) only [x, BitVec.extractLsb'_append_eq_of_le, BitVec.extractLsb'_append_eq_of_add_le,
    BitVec.extractLsb'_eq_self, BitVec.getLsbD_append, BitVec.getLsbD_ofBool, Nat.reduceSub]
  simp

/-- STATUS has each piece of the block's state in its field (R24). -/
theorem statusWord_fields (s : State) :
    (statusWord s).extractLsb' 0 3 = s.owner.code ∧ (statusWord s).extractLsb' 3 1 = s.wmode.bit
      ∧ (statusWord s).extractLsb' 4 2 = s.result.code ∧ (statusWord s).getLsbD 6 = s.fault
      ∧ (statusWord s).getLsbD 7 = false ∧ (statusWord s).extractLsb' 8 4 = s.fcode
      ∧ (statusWord s).extractLsb' 12 20 = 0#20 :=
  fields_of_append s.fcode 0#1 s.fault s.result.code s.wmode.bit s.owner.code

/-- DELAY_US in microseconds for each LED and the gap (R104). -/
theorem delayUs_eq (p : Config.Params) : delayUs p = 30 * p.ledCount + 270 := by
  unfold delayUs ceilDiv resetUs
  omega

end Sys2Proof.Machine
end

section
/-! PROOFS. The invariant holds at reset and every step keeps it (R33, R36, R41): one lemma for each thing a step can do. -/

namespace Sys2Proof.Safety

open Sys2Proof Sys2Proof.Machine

/-! ### The sequencer's clauses, by the phase reached (R33, R34) -/

section
variable {t : State} (htick : t.seq.tick < periodTicks) (hrise : slotsRise t.seq.dirty = true)
  (hlt : ∀ i ∈ t.seq.dirty, i < capacity t.cfg)
include htick

theorem seqInv_of_off (hp : t.seq.phase = .off) (hslot : t.seq.slot = 0 ∨ t.seq.slot = capacity t.cfg)
    (hd : t.seq.dirty = []) : SeqInv t where
  slot_le := by omega
  tick_lt := htick
  lat_cnt := by simp [hp]
  bits_slot := by simp [hp]
  gap_cnt := by simp [hp]
  off_slot _ := hslot
  lat_slot _ := hslot
  off_clean _ := hd
  dirty_rise := by simp [hd, slotsRise]
  dirty_lt := by simp [hd]

include hrise hlt

theorem seqInv_of_lat (hp : t.seq.phase = .lat) (hslot : t.seq.slot = 0 ∨ t.seq.slot = capacity t.cfg)
    (hcnt : 1 ≤ t.seq.cnt ∧ t.seq.cnt ≤ t.cfg.startLatency) : SeqInv t where
  slot_le := by omega
  tick_lt := htick
  lat_cnt _ := hcnt
  bits_slot := by simp [hp]
  gap_cnt := by simp [hp]
  off_slot _ := hslot
  lat_slot _ := hslot
  off_clean := by simp [hp]
  dirty_rise := hrise
  dirty_lt := hlt

theorem seqInv_of_bits (hp : t.seq.phase = .bits) (hslot : t.seq.slot < capacity t.cfg) : SeqInv t where
  slot_le := hslot.le
  tick_lt := htick
  lat_cnt := by simp [hp]
  bits_slot _ := hslot
  gap_cnt := by simp [hp]
  off_slot := by simp [hp]
  lat_slot := by simp [hp]
  off_clean := by simp [hp]
  dirty_rise := hrise
  dirty_lt := hlt

theorem seqInv_of_gap (hp : t.seq.phase = .gap) (hslot : t.seq.slot = capacity t.cfg)
    (hcnt : 1 ≤ t.seq.cnt ∧ t.seq.cnt ≤ resetTicks) : SeqInv t where
  slot_le := hslot.le
  tick_lt := htick
  lat_cnt := by simp [hp]
  bits_slot := by simp [hp]
  gap_cnt _ := ⟨hcnt.1, hcnt.2, hslot⟩
  off_slot _ := .inr hslot
  lat_slot _ := .inr hslot
  off_clean := by simp [hp]
  dirty_rise := hrise
  dirty_lt := hlt

end

/-- Slots of the buffer that become dirty before they are latched keep the sequencer's clauses (R128). -/
theorem SeqInv.of_marked {s t : State} (h : SeqInv s) (hcfg : t.cfg = s.cfg)
    (hseq : t.seq = { s.seq with dirty := t.seq.dirty }) (hrise : slotsRise t.seq.dirty = true)
    (hmem : ∀ i ∈ t.seq.dirty, i ∈ s.seq.dirty ∨ (i < capacity s.cfg ∧ unlatched s.seq i = true)) : SeqInv t := by
  have hlt : ∀ i ∈ t.seq.dirty, i < capacity s.cfg := fun i hi =>
    (hmem i hi).elim (h.dirty_lt i) And.left
  have hoff : s.seq.phase = .off → t.seq.dirty = [] := fun hp => by
    simpa [h.off_clean hp, unlatched, hp, List.eq_nil_iff_forall_not_mem] using hmem
  obtain ⟨slot_le, tick_lt, lat_cnt, bits_slot, gap_cnt, off_slot, lat_slot, -, -, -⟩ := h
  rw [← hcfg] at *
  generalize t.seq.dirty = d at *
  constructor <;> rw [hseq] <;> assumption

theorem slotsRise_storeSlot {s : State} (i : Nat) (w : Code) (h : slotsRise s.seq.dirty = true) :
    slotsRise (storeSlot i w s).seq.dirty = true := by
  rw [storeSlot_seq]
  dsimp only
  split
  · exact slotsRise_insertSlot _ _ h
  · exact h

theorem SeqInv.storeSlot {s : State} (h : SeqInv s) {i : Nat} (w : Code) (hi : i < capacity s.cfg) :
    SeqInv (storeSlot i w s) := by
  refine h.of_marked rfl rfl ?_ fun j hj => ?_
  · exact slotsRise_storeSlot i w h.dirty_rise
  · obtain hj | ⟨rfl, hu⟩ := (mem_storeSlot_dirty ..).mp hj
    · exact .inl hj
    · exact .inr ⟨hi, hu⟩

theorem SeqInv.encodeColour {s : State} (h : SeqInv s) (r g b : Byte) (hc : s.cursor < s.cfg.ledCount) :
    SeqInv (encodeColour r g b s) := by
  refine h.of_marked (by simp) (encodeColour_seq ..) ?_ fun i hi => ?_
  · rw [encodeColour_dirty]
    exact slotsRise_storeChunkFrom _ _ _ _ _ _ h.dirty_rise
  · obtain hi | ⟨-, hi, hu⟩ := ((encodeColour_spec r g b s).2.2 i).mp hi
    · exact .inl hi
    · exact .inr ⟨by unfold capacity; omega, hu⟩

/-- An accepted TRIG starts at slot 0, or in LAT where the last pass left the sequencer (R121). -/
theorem SeqInv.acceptTrigger {s : State} (h : SeqInv s) (hoff : s.seq.phase = .off) (hcap : 0 < capacity s.cfg) :
    SeqInv (acceptTrigger s) := by
  by_cases hl : s.cfg.startLatency = 0
  · apply seqInv_of_bits <;> simp [hl, hcap, slotsRise, show 0 < periodTicks by decide]
  · apply seqInv_of_lat <;> simp [hl, h.off_slot hoff, h.tick_lt, slotsRise]
    omega

/-- The sequencer's half of a tick keeps its clauses, in a buffer that has a slot for it to send (R124). -/
theorem SeqInv.tickSeq {s : State} (h : SeqInv s) (hcap : s.seq.phase ≠ .off → 0 < capacity s.cfg) :
    SeqInv (tickSeq s) := by
  have hperiod : 0 < periodTicks := by decide
  have hrise := h.dirty_rise
  have hlt := h.dirty_lt
  cases hp : s.seq.phase with
  | off =>
    have hq := tickSeq_off hp
    apply seqInv_of_off <;> rw [hq]
    · exact h.tick_lt
    · exact hp
    · simpa using h.off_slot hp
    · exact h.off_clean hp
  | lat =>
    obtain ⟨hlast, hcount⟩ := tickSeq_lat hp
    by_cases hc : s.seq.cnt - 1 = 0
    · obtain ⟨w, hq⟩ := hlast hc
      apply seqInv_of_bits <;> simp [hq, hperiod, hrise, hcap (by simp [hp])]
      exact hlt
    · have hq := hcount hc
      have := h.lat_cnt hp
      apply seqInv_of_lat <;> simp [hq, h.tick_lt, hrise, hp, h.lat_slot hp]
      · exact hlt
      · omega
  | bits =>
    obtain ⟨hwithin, hend, hnext⟩ := tickSeq_bits hp
    have hslot := h.bits_slot hp
    have htick := h.tick_lt
    by_cases ht : s.seq.tick + 1 = periodTicks
    · by_cases hs : s.seq.slot + 1 = capacity s.cfg
      · have hq := hend ht hs
        apply seqInv_of_gap <;> simp [hq, hperiod, hrise, hs, show 1 ≤ resetTicks by decide]
        exact hlt
      · obtain ⟨w, hq⟩ := hnext ht hs
        apply seqInv_of_bits <;> simp [hq, hperiod, hrise, hp]
        · exact hlt
        · omega
    · have hq := hwithin ht
      apply seqInv_of_bits <;> simp [hq, hrise, hp, hslot]
      · omega
      · exact hlt
  | gap =>
    obtain ⟨hlast, hcount⟩ := tickSeq_gap hp
    obtain ⟨hpos, hle, hslot⟩ := h.gap_cnt hp
    by_cases hc : s.seq.cnt - 1 = 0
    · have hq := hlast hc
      apply seqInv_of_off <;> simp [hq, h.tick_lt, hslot]
    · have hq := hcount hc
      apply seqInv_of_gap <;> simp [hq, h.tick_lt, hrise, hp, hslot]
      · exact hlt
      · omega

/-! ### The buffer's clauses (R32, R39) -/

theorem bufInv_of_unwritten {t : State} (h : t.buf.cells = []) : BufInv t := by
  constructor <;> simp [h, Mem.wf, Mem.risesFrom]

theorem BufInv.storeSlot {s : State} (h : BufInv s) {i : Nat} (w : Code) (hi : i < capacity s.cfg) :
    BufInv (storeSlot i w s) where
  wf := wf_writeSlot i w h.wf
  in_range c hc := by
    rw [storeSlot_cfg]
    obtain hc | hc | hc := mem_writeSlot hc
    · omega
    · omega
    · exact h.in_range c hc

theorem BufInv.encodeColour {s : State} (h : BufInv s) (r g b : Byte) (hc : s.cursor < s.cfg.ledCount) :
    BufInv (encodeColour r g b s) where
  wf := by
    rw [encodeColour_buf]
    exact wf_storeChunkFrom _ _ _ _ _ _ h.wf
  in_range c hx := by
    rw [encodeColour_buf] at hx
    rw [encodeColour_cfg]
    obtain hx | hx := mem_storeChunkFrom_buf _ _ _ _ _ _ _ hx
    · unfold capacity; omega
    · exact h.in_range c hx

/-! ### Outside WAITING -/

/-- No wait runs: outside WAITING, with the timer stopped, WMODE 0, and neither the host blocked nor a task suspended. -/
structure NoWait (s : State) : Prop where
  not_waiting : s.owner ≠ .waiting
  remain_eq : s.timer.remain = 0
  wmode_eq : s.wmode = .blocking
  not_blocked : s.host.blocked = false
  none_suspended : s.host.suspended = none

theorem Inv.noWait {s : State} (h : Inv s) (ho : s.owner ≠ .waiting) : NoWait s := by
  have hmode : s.wmode ≠ .suspending := fun hw => ho (h.spec.suspending_waiting hw)
  refine ⟨ho, ?_, ?_, ?_, ?_⟩
  · have := mt h.spec.waiting_iff.mpr ho
    omega
  · cases hw : s.wmode
    · rfl
    · exact absurd hw hmode
  · simpa [ho] using h.hostSide.blocked_iff
  · simpa [hmode] using h.hostSide.suspended_iff

theorem NoWait.specInv {t : State} (h : NoWait t) (hcursor : t.cursor ≤ t.cfg.ledCount)
    (hresult : t.owner = .transmitting → t.result = .ok) (hoff : t.owner = .uninit → t.seq.phase = .off)
    (hfault : t.fault = false ↔ t.fcode = 0#4) : SpecInv t where
  cursor_le := hcursor
  waiting_iff := by simp [h.not_waiting, h.remain_eq]
  in_flight_ok ho := hresult (ho.resolve_right h.not_waiting)
  uninit_off := hoff
  suspending_waiting := by simp [h.wmode_eq]
  fault_iff := hfault

theorem NoWait.hostInv {t : State} (h : NoWait t)
    (hbuilt : t.owner ≠ .uninit →
      t.binding = some { pin := t.cfg.outputPin, drive := t.cfg.drive } ∧ configOk t.cfg = true)
    (hunbuilt : t.owner = .uninit → t.binding = none ∧ t.seq.slot = 0) : HostInv t where
  built := hbuilt
  unbuilt := hunbuilt
  blocked_iff := by simp [h.not_blocked, h.not_waiting]
  suspended_iff := by simp [h.none_suspended, h.wmode_eq]
  remain_le := by simp [h.remain_eq]

/-! ### Reset -/

theorem inv_loaded (cfg : Config.Params) (agenda : List Event) : Inv (loaded cfg agenda) := by
  have hw : NoWait (loaded cfg agenda) := ⟨nofun, rfl, rfl, rfl, rfl⟩
  exact ⟨hw.specInv (Nat.zero_le _) nofun (fun _ => rfl) (iff_of_true rfl rfl),
    seqInv_of_off (show 0 < periodTicks by decide) rfl (.inl rfl) rfl, bufInv_of_unwritten rfl,
    hw.hostInv (absurd rfl) fun _ => ⟨rfl, rfl⟩⟩

theorem gapInv_loaded (cfg : Config.Params) (agenda : List Event) : GapInv (loaded cfg agenda) :=
  ⟨nofun, fun _ h => absurd rfl h, nofun⟩

/-- Power-on reset gives the invariant's fields their values at the launch (R42). -/
theorem inv_powerOnReset (rest : List Event) (s : State) : Inv (powerOnReset rest s) :=
  have h := inv_loaded s.cfg rest
  ⟨{ h.spec with }, { h.sequencer with }, { h.buffer with }, { h.hostSide with }⟩

/-! ### Host steps -/

/-- The invariant does not read the agenda, the draws, or what the host agent holds beside its two waits. -/
theorem Inv.withRecords {s : State} (h : Inv s) {host : HostAgent} (agenda : List Event) (draws : Nat)
    (hb : host.blocked = s.host.blocked) (hs : host.suspended = s.host.suspended) :
    Inv { s with host := host, agenda := agenda, draws := draws } :=
  ⟨{ h.spec with }, { h.sequencer with }, { h.buffer with },
    { h.hostSide with
      blocked_iff := by simpa [hb] using h.hostSide.blocked_iff
      suspended_iff := by simpa [hs] using h.hostSide.suspended_iff }⟩

/-- A recorded fault has a code, the first one's (R28, R180). -/
theorem recordFault_fcode_ne_zero {s : State} (h : s.fault = false ↔ s.fcode = 0#4) (c : Cause) :
    (recordFault c s).fcode ≠ 0#4 := by
  rw [recordFault_fcode]
  split
  · rename_i hf
    simpa [hf] using h
  · cases c <;> decide

theorem Inv.recordFault {s : State} (h : Inv s) (c : Cause) : Inv (recordFault c s) :=
  ⟨{ h.spec with fault_iff := iff_of_false (by simp) (recordFault_fcode_ne_zero h.spec.fault_iff c) },
    { h.sequencer with }, { h.buffer with }, { h.hostSide with }⟩

theorem Inv.storeSlot {s : State} (h : Inv s) {i : Nat} (w : Code) (hi : i < capacity s.cfg) :
    Inv (storeSlot i w s) :=
  ⟨{ h.spec with }, h.sequencer.storeSlot w hi, h.buffer.storeSlot w hi, { h.hostSide with }⟩

theorem Inv.construct {s : State} (h : Inv s) (ho : s.owner = .uninit) (hc : configOk s.cfg = true) :
    Inv (construct s) := by
  have hw : NoWait (Machine.construct s) := { h.noWait (by simp [ho]) with not_waiting := nofun }
  exact ⟨hw.specInv h.spec.cursor_le nofun nofun h.spec.fault_iff, { h.sequencer with }, { h.buffer with },
    hw.hostInv (fun _ => ⟨rfl, hc⟩) nofun⟩

theorem Inv.startFrame {s : State} (h : Inv s) (ho : s.owner = .idle) : Inv (startFrame s) := by
  have hw : NoWait (Machine.startFrame s) := { h.noWait (by simp [ho]) with not_waiting := nofun }
  exact ⟨hw.specInv (Nat.zero_le _) nofun nofun h.spec.fault_iff, { h.sequencer with }, { h.buffer with },
    hw.hostInv (fun _ => h.hostSide.built (by simp [ho])) nofun⟩

theorem Inv.encodeColour {s : State} (h : Inv s) (r g b : Byte) (ho : s.owner = .encoding)
    (hc : s.cursor ≠ s.cfg.ledCount) : Inv (encodeColour r g b s) := by
  have hlt : s.cursor < s.cfg.ledCount := lt_of_le_of_ne h.spec.cursor_le hc
  have hs := h.noWait (by simp [ho])
  have hw : NoWait (Machine.encodeColour r g b s) := by
    constructor <;> simp [ho, hs.remain_eq, hs.wmode_eq, hs.not_blocked, hs.none_suspended]
  refine ⟨hw.specInv ?_ ?_ ?_ ?_, h.sequencer.encodeColour r g b hlt, h.buffer.encodeColour r g b hlt,
    hw.hostInv ?_ ?_⟩
  · simpa using hlt
  · simp [ho]
  · simp [ho]
  · simpa using h.spec.fault_iff
  · simpa [ho] using h.hostSide.built
  · simp [ho]

theorem capacity_pos_of_configOk {p : Config.Params} (h : configOk p = true) : 0 < capacity p := by
  simp only [configOk, Bool.and_eq_true, decide_eq_true_eq] at h
  unfold capacity
  omega

theorem Inv.capacity_pos {s : State} (h : Inv s) (ho : s.owner ≠ .uninit) : 0 < capacity s.cfg :=
  capacity_pos_of_configOk (h.hostSide.built ho).2

theorem Inv.countRefusalDraw {s : State} (h : Inv s) : Inv (countRefusalDraw s) :=
  h.withRecords _ _ rfl rfl

/-- An accepted TRIG finds the sequencer off (R120). -/
theorem seq_off_of_not_refuses {s : State} (h : refuses s = false) : s.seq.phase = .off := by
  simp only [refuses, busy, Bool.or_eq_false_iff, decide_eq_false_iff_not, not_not] at h
  exact h.1

theorem Inv.acceptTrigger {s : State} (h : Inv s) (ho : s.owner = .encoding) (hoff : s.seq.phase = .off) :
    Inv (acceptTrigger s) := by
  have hw : NoWait (Machine.acceptTrigger s) := { h.noWait (by simp [ho]) with not_waiting := nofun }
  exact ⟨hw.specInv h.spec.cursor_le (fun _ => rfl) nofun h.spec.fault_iff,
    h.sequencer.acceptTrigger hoff (h.capacity_pos (by simp [ho])), { h.buffer with },
    hw.hostInv (fun _ => h.hostSide.built (by simp [ho])) nofun⟩

theorem Inv.rejectTrigger {s : State} (h : Inv s) (ho : s.owner = .encoding) : Inv (rejectTrigger s) := by
  have hw : NoWait (Machine.rejectTrigger s) := { h.noWait (by simp [ho]) with not_waiting := nofun }
  exact ⟨hw.specInv h.spec.cursor_le nofun nofun h.spec.fault_iff, { h.sequencer with }, { h.buffer with },
    hw.hostInv (fun _ => h.hostSide.built (by simp [ho])) nofun⟩

/-- A wait ends and the block is IDLE: on CANCEL (R143) and on the timer's expiry (R145). -/
theorem Inv.endWait {s t : State} (h : Inv s) (ho : s.owner = .waiting) (hw : NoWait t)
    (ht : t = { s with
      owner := .idle, wmode := t.wmode, timer := t.timer, host := t.host, agenda := t.agenda, draws := t.draws }) :
    Inv t := by
  rw [ht] at hw ⊢
  exact ⟨hw.specInv h.spec.cursor_le nofun nofun h.spec.fault_iff, { h.sequencer with }, { h.buffer with },
    hw.hostInv (fun _ => h.hostSide.built (by simp [ho])) nofun⟩

theorem Inv.cancelWait {s : State} (h : Inv s) (ho : s.owner = .waiting) (hm : s.wmode = .suspending) :
    Inv (cancelWait s) :=
  h.endWait ho ⟨nofun, rfl, rfl, by simpa [hm] using h.hostSide.blocked_iff, rfl⟩ rfl

theorem delayTicks_pos (p : Config.Params) : 0 < delayTicks p := by
  unfold delayTicks delayUs
  exact Nat.mul_pos (by decide) (Nat.add_pos_right _ (by decide))

/-- WAITB and WAITS start a wait (R140, R141): the timer is loaded, and the host blocked or a task suspended as WMODE says. -/
theorem Inv.startWait {s : State} (h : Inv s) (ho : s.owner = .transmitting) (mode : WaitMode) (host : HostAgent)
    (hb : host.blocked = true ↔ mode = .blocking) (hs : host.suspended.isSome = true ↔ mode = .suspending) :
    Inv { startWait mode s with host := host } where
  spec := { h.spec with
    waiting_iff := iff_of_true rfl (delayTicks_pos _)
    in_flight_ok := fun _ => h.spec.in_flight_ok (.inl ho)
    uninit_off := nofun
    suspending_waiting := fun _ => rfl }
  sequencer := { h.sequencer with }
  buffer := { h.buffer with }
  hostSide :=
    { built := fun _ => h.hostSide.built (by simp [ho])
      unbuilt := nofun
      blocked_iff := by simpa using hb
      suspended_iff := hs
      remain_le := le_refl _ }

/-- Every command's effect keeps the invariant. -/
theorem Inv.command {s t : State} {i : Instr} (h : Inv s) (he : CommandEffect s i t) : Inv t := by
  cases he with
  | init ho hc => exact h.construct ho hc
  | beginFrame ho => exact h.startFrame ho
  | push r g b ho hc => exact h.encodeColour r g b ho hc
  | accept ho hr =>
    have hoff := seq_off_of_not_refuses hr
    exact h.countRefusalDraw.acceptTrigger ho hoff
  | reject ho _ => exact h.countRefusalDraw.rejectTrigger ho
  | waitb ho =>
    have hs := (h.noWait (by simp [ho])).none_suspended
    exact h.startWait ho .blocking { s.host with blocked := true } (by simp) (by simp [hs])
  | waits ho =>
    have hb := (h.noWait (by simp [ho])).not_blocked
    exact h.startWait ho .suspending { s.host with suspended := some s.host.task } (by simp [hb]) (by simp)
  | cancel ho hm => exact h.cancelWait ho hm

/-- Every host step keeps the invariant (R161 to R164, R84). -/
theorem Inv.hostStep {s t : State} {op : HostOp} (h : Inv s) (he : HostEffect op s t) : Inv t := by
  cases he with
  | replied r => exact h.withRecords _ _ rfl rfl
  | drew n => exact h.withRecords _ _ rfl rfl
  | ignored => exact h
  | raised c _ => exact (h.recordFault c).withRecords _ _ rfl rfl
  | stored a v i _ _ _ _ hi => exact h.storeSlot _ hi
  | command a v i t _ _ _ _ he => exact h.command he
  | returned r u hu _ =>
    obtain rfl | ⟨r', rfl⟩ := hu
    · exact h.withRecords _ _ rfl rfl
    · exact h.withRecords _ _ rfl rfl
  | waitNext mode _ r => exact h.withRecords _ _ rfl rfl

/-! ### Ticks -/

theorem Inv.tickSeq {s : State} (h : Inv s) : Inv (tickSeq s) := by
  have hon : s.seq.phase ≠ .off → s.owner ≠ .uninit := mt h.spec.uninit_off
  have hq : s.owner = .uninit → (Machine.tickSeq s).seq = s.seq := fun ho => tickSeq_off (h.spec.uninit_off ho)
  have hseq := h.sequencer.tickSeq fun hp => h.capacity_pos (hon hp)
  obtain ⟨q, l, n, ht⟩ := tickSeq_frame s
  rw [ht] at hq hseq ⊢
  exact ⟨{ h.spec with uninit_off := fun ho => by rw [hq ho]; exact h.spec.uninit_off ho }, hseq, { h.buffer with },
    { h.hostSide with unbuilt := fun ho => by rw [hq ho]; exact h.hostSide.unbuilt ho }⟩

theorem Inv.countTimerDraw {s : State} (h : Inv s) : Inv (countTimerDraw s) :=
  h.withRecords _ _ rfl rfl

theorem Inv.expire {s : State} (h : Inv s) (ho : s.owner = .waiting) : Inv (expire s) :=
  h.endWait ho ⟨nofun, rfl, rfl, rfl, rfl⟩ rfl

theorem Inv.failTimer {s : State} (h : Inv s) : Inv (failTimer s) :=
  have hf := h.recordFault .suspensionFailure
  ⟨{ hf.spec with }, { hf.sequencer with }, { hf.buffer with }, { hf.hostSide with }⟩

theorem Inv.countDown {s : State} (h : Inv s) (ho : s.owner = .waiting) {n : Nat} (hpos : 0 < n)
    (hle : n ≤ s.timer.remain) : Inv { s with timer := { s.timer with remain := n } } :=
  ⟨{ h.spec with waiting_iff := iff_of_true ho hpos }, { h.sequencer with }, { h.buffer with },
    { h.hostSide with remain_le := hle.trans h.hostSide.remain_le }⟩

theorem Inv.tickTimer {s : State} (h : Inv s) : Inv (tickTimer s) := by
  rcases tickTimer_cases s with ⟨ht, -⟩ | ⟨ho, -, ⟨ht, -⟩ | ⟨ht, -⟩ | ⟨ht, hr⟩⟩
  · rw [ht]; exact h
  · rw [ht]; exact h.countTimerDraw.failTimer
  · rw [ht]; exact h.countTimerDraw.expire ho
  · rw [ht]; exact h.countTimerDraw.countDown ho (by omega) (Nat.sub_le _ _)

/-! ### Steps and runs -/

theorem Inv.step {s t : State} (h : Inv s) (hs : step s = .next t) : Inv t := by
  obtain ⟨rest, rfl⟩ | ⟨task, op, rest, -, he⟩ | ⟨rest, -, rfl⟩ := step_cases hs
  · have hr : Inv (setAgenda rest s) := h.withRecords _ _ rfl rfl
    exact hr.tickSeq.tickTimer
  · have hu : Inv (hostTurn task rest s) := h.withRecords _ _ rfl rfl
    exact hu.hostStep he
  · exact inv_powerOnReset rest s

/-- A property that every step keeps holds of whatever a run reaches from a state that has it. -/
theorem run_keeps (M : Host.Core) {P : M.State → Prop} (hstep : ∀ s t, P s → M.step s = .next t → P t)
    (k : Nat) : ∀ s t, P s → M.run k s = .next t → P t := by
  induction k with
  | zero =>
    intro s t hs hr
    injection hr with hr
    exact hr ▸ hs
  | succ k ih =>
    intro s t hs hr
    rw [Host.Core.run] at hr
    split at hr
    · rename_i u hu
      exact ih u t (hstep s u hs hu) hr
    · cases hr
    · cases hr

/-- Every reachable state meets the invariant (R41). -/
theorem inv_of_reachable {s : State} (h : Reachable s) : Inv s := by
  obtain ⟨cfg, agenda, k, hr⟩ := h
  exact run_keeps Sys2Proof.core (P := Inv) (fun _ _ => Inv.step) k _ s (inv_loaded cfg agenda) hr

end Sys2Proof.Safety
end

section
/-! PROOFS. The statements of the state (10_state.md): the invariant, reset, the blocked host, and what no step changes. -/

namespace Sys2Proof.Safety

open Sys2Proof Sys2Proof.Machine

/-- Settles O59: each thing a step can do keeps the invariant. -/
theorem stepKeepsTheInvariant : Obligations.StepKeepsTheInvariant := by
  unfold Obligations.StepKeepsTheInvariant
  exact fun _ _ => Inv.step

/-- Settles O58: a loaded machine meets the invariant, and State.reset is one with an empty agenda. -/
theorem invariantsHoldAtReset : Obligations.InvariantsHoldAtReset := by
  unfold Obligations.InvariantsHoldAtReset
  exact ⟨fun cfg agenda => ⟨inv_loaded cfg agenda, gapInv_loaded cfg agenda⟩, inv_loaded Config.params []⟩

/-- Settles O60: the clauses of R41 are part of the invariant, which every reachable state meets. -/
theorem reachableStatesMeetR41 : Obligations.ReachableStatesMeetR41 := by
  unfold Obligations.ReachableStatesMeetR41
  exact fun _ h => (inv_of_reachable h).spec

/-- Settles O13: the reset comes with the sequencer off, and a slot that nothing has written reads as INIT_BUFFER. -/
theorem powerOnResetsTheBlock : Obligations.PowerOnResetsTheBlock := by
  unfold Obligations.PowerOnResetsTheBlock
  intro s rest hn
  have hoff : s.seq.phase = .off := by simpa [enabled, busy] using nextEvent_enabled hn
  exact ⟨hoff, _, step_of_nextEvent_eq_powerOn hn, rfl, rfl, fun i => readSlot_unwritten _ i⟩

/-- Settles O14: of the four kinds of next event only the absent one and a tick are left, and both tick. -/
theorem blockedHostHasNoStep : Obligations.BlockedHostHasNoStep := by
  unfold Obligations.BlockedHostHasNoStep
  intro s t hb hp hs
  match hn : nextEvent s s.agenda with
  | none =>
    rw [step_of_nextEvent_eq_none hn] at hs
    injection hs with hs
    exact ⟨s.agenda, hs.symm, rfl⟩
  | some (.tick, rest) =>
    rw [step_of_nextEvent_eq_tick hn] at hs
    injection hs with hs
    obtain ⟨pre, post, hagenda, hrest, -⟩ := nextEvent_split hn
    exact ⟨rest, hs.symm, by simp [hagenda, hrest]⟩
  | some (.powerOn, rest) =>
    rw [powersOn_iff.mpr ⟨rest, hn⟩] at hp
    exact absurd hp (by decide)
  | some (.host task op, rest) =>
    rw [not_blocked_of_nextEvent_host hn] at hb
    exact absurd hb (by decide)

/-- Settles O30: neither a tick nor a host step writes FAULT or FCODE of a faulted block; a power-on reset clears both. -/
theorem firstFaultSticks : Obligations.FirstFaultSticks := by
  unfold Obligations.FirstFaultSticks
  intro s t hs hf
  refine ⟨fun hp => ?_, fun hp => ?_⟩
  · obtain ⟨rest, rfl⟩ | ⟨task, op, rest, -, he⟩ := step_cases_of_not_powersOn hp hs
    · exact tick_fault_eq (s := setAgenda rest s) hf
    · exact he.fault_eq hf
  · obtain ⟨rest, rfl⟩ := eq_powerOnReset_of_powersOn hp hs
    exact ⟨rfl, rfl⟩

/-- Settles O31: a tick keeps RESULT, and of the host steps only those that deliver BEGIN or TRIG write it. -/
theorem onlyBeginAndTrigWriteResult : Obligations.OnlyBeginAndTrigWriteResult := by
  unfold Obligations.OnlyBeginAndTrigWriteResult
  intro s t hs hr
  obtain ⟨rest, rfl⟩ | ⟨task, op, rest, hn, he⟩ | ⟨rest, hn, rfl⟩ := step_cases hs
  · exact absurd (tick_result (setAgenda rest s)) hr
  · obtain ⟨a, v, i, rfl, ha, hd, hi⟩ := he.result_cases hr
    exact .inr ⟨task, a, v, rest, i, hn, ha, hd, hi⟩
  · exact .inl ⟨powersOn_iff.mpr ⟨rest, hn⟩, rfl⟩

/-- Settles O32: only INIT binds, and a bound block is no longer in UNINIT, where INIT has its effect. -/
theorem configurationAndBindingAreFixed : Obligations.ConfigurationAndBindingAreFixed := by
  unfold Obligations.ConfigurationAndBindingAreFixed
  intro s t hs
  refine ⟨step_cfg_eq hs, fun hi hbound hp => ?_⟩
  have ho : s.owner ≠ .uninit := fun ho => hbound (hi.unbuilt ho).1
  obtain ⟨rest, rfl⟩ | ⟨task, op, rest, -, he⟩ := step_cases_of_not_powersOn hp hs
  · exact tick_binding (setAgenda rest s)
  · exact he.binding_eq ho

/-- Settles O37: a tick in OFF puts LOW on a bound line, and one in LAT or GAP does so whether or not it is the phase's last. -/
theorem lineIsLowOutsideBits : Obligations.LineIsLowOutsideBits := by
  unfold Obligations.LineIsLowOutsideBits
  intro s hbound hp
  rw [tick_line]
  cases hq : s.seq.phase with
  | off =>
    have hdone : initDone s = true := Option.isSome_iff_ne_none.mpr hbound
    simp [tickSeq, hq, tickOff, hdone]
  | lat =>
    simp only [tickSeq, hq, tickLat]
    split
    · rw [latchSlot_line]; rfl
    · rfl
  | bits => exact absurd hq hp
  | gap =>
    simp only [tickSeq, hq, tickGap]
    split <;> rfl

/-- Settles O8: the next event is a host step, and a 4-byte store to offset 0 delivers the command. -/
theorem stepRunsDeliveredCommand : Obligations.StepRunsDeliveredCommand := by
  unfold Obligations.StepRunsDeliveredCommand
  intro s task a v rest i hn ha hd
  rw [step_of_nextEvent_eq_host hn]
  exact busStore_command ha hd

/-- Settles O10: the placed store comes next and delivers the word; the host's turn takes it off the agenda again. -/
theorem placedWordRunsNext : Obligations.PlacedWordRunsNext := by
  unfold Obligations.PlacedWordRunsNext
  intro s nbits w i hd
  have hword : ((tableWord nbits w).setWidth 64).setWidth 32 = tableWord nbits w := by simp
  exact stepRunsDeliveredCommand _ _ _ _ _ i (nextEvent_placeCommand (tableWord nbits w) s) rfl
    (hword.symm ▸ decode_tableWord hd)

/-- Settles O48: STATUS has its fields one behind another, and each holds the code of its piece of the state. -/
theorem statusFields : Obligations.StatusFields := by
  unfold Obligations.StatusFields
  intro s
  obtain ⟨howner, hwmode, hresult, hrest⟩ := statusWord_fields s
  refine ⟨?_, ?_, ?_, hrest⟩
  · rw [howner]; cases s.owner <;> rfl
  · rw [hwmode]; cases s.wmode <;> rfl
  · rw [hresult]; cases s.result <;> rfl

/-- Settles O57: the fields hold their reset values by definition; the slots read as never written, and DELAY_US is computed. -/
theorem resetValues : Obligations.ResetValues := by
  unfold Obligations.ResetValues
  intro cfg s
  have hdelay : readRegister 0x028 s = BitVec.ofNat 32 (30 * cfg.ledCount + 270) :=
    congrArg (BitVec.ofNat 32) (delayUs_eq cfg)
  have hslots : ∀ i, readSlot s.buf i = Config.initBuffer 0 i := readSlot_unwritten 0
  have hstatus : statusWord s = 0#32 := by
    show 0#20 ++ 0#4 ++ 0#1 ++ BitVec.ofBool false ++ 0#2 ++ 0#1 ++ 0#3 = 0#32
    decide
  exact ⟨rfl, rfl, rfl, rfl, rfl, hstatus, rfl, rfl, rfl, rfl, rfl, rfl, rfl, rfl, rfl, rfl, hslots, rfl, rfl, rfl, rfl,
    rfl, rfl, rfl, hdelay, rfl, rfl⟩

end Sys2Proof.Safety
end

section
/-! PROOFS. The decoder and the encoder: a word decodes exactly to the command whose word it is (R71 to R75), and what each
slot of a chunk carries (R79, R80). -/

namespace Sys2Proof

/-! ### The fields of a word (R71, R73) -/

/-- A word is its opcode before its operand (R71). -/
theorem opcodeOf_append_operandOf (w : Word) : opcodeOf w ++ operandOf w = w :=
  (BitVec.extractLsb'_append_extractLsb'_eq_extractLsb' (by decide)).trans BitVec.extractLsb'_eq_self

/-- A word with PUSH's opcode is the word of PUSH with the colour it holds (R73). -/
theorem encode_push_of_opcodeOf {w : Word} (h : opcodeOf w = 0x03#8) :
    encode (.push (redOf w) (greenOf w) (blueOf w)) = w := by
  rw [encode, ← h]
  simp (disch := decide) only [opcodeOf, redOf, greenOf, blueOf, BitVec.extractLsb'_append_extractLsb'_eq_extractLsb']
  exact BitVec.extractLsb'_eq_self

/-- PUSH's word holds its colour (R73). -/
theorem colour_encode_push (r g b : Byte) :
    redOf (encode (.push r g b)) = r ∧ greenOf (encode (.push r g b)) = g ∧ blueOf (encode (.push r g b)) = b := by
  simp (disch := decide) only [redOf, greenOf, blueOf, encode, BitVec.extractLsb'_append_eq_of_le,
    BitVec.extractLsb'_append_eq_of_add_le, BitVec.extractLsb'_eq_self, Nat.reduceSub, and_self]

/-! ### Decoding (R71 to R73) -/

/-- A format-N command stands only if the operand is 0 (R72). -/
theorem formatN_eq_ok_iff {w : Word} {i j : Instr} : formatN w i = .ok j ↔ operandOf w = 0#24 ∧ i = j := by
  unfold formatN
  split <;> simp [*]

/-- A format-N command that does not stand has a bit of the operand set (R72). -/
theorem operandOf_ne_zero_of_formatN {w : Word} {i : Instr} {e : DecodeError} (h : formatN w i = .error e) :
    operandOf w ≠ 0#24 := by
  intro hoperand
  rw [formatN, if_pos hoperand] at h
  cases h

/-- A format-N command that stands has the word of its opcode before 24 zeros (R72). -/
theorem encode_of_formatN {w : Word} {op : BitVec 8} {i j : Instr} (hop : opcodeOf w = op)
    (hi : encode i = op ++ 0#24) (h : formatN w i = .ok j) : encode j = w := by
  obtain ⟨hoperand, rfl⟩ := formatN_eq_ok_iff.mp h
  rw [hi, ← hop, ← hoperand, opcodeOf_append_operandOf]

theorem decode_encode (i : Instr) : decode (encode i) = .ok i := by
  cases i with
  | push r g b =>
    have hop : opcodeOf (encode (.push r g b)) = 0x03#8 := Laws.Encoding.push_opcode r g b
    obtain ⟨hr, hg, hb⟩ := colour_encode_push r g b
    simp [decode, hop, hr, hg, hb]
  | _ => decide

theorem encode_of_decode {w : Word} {i : Instr} (h : decode w = .ok i) : encode i = w := by
  unfold decode at h
  split_ifs at h with h1 h2 h3 h4 h5 h6 h7
  · exact encode_of_formatN h1 rfl h
  · exact encode_of_formatN h2 rfl h
  · injection h with h
    exact h ▸ encode_push_of_opcodeOf h3
  · exact encode_of_formatN h4 rfl h
  · exact encode_of_formatN h5 rfl h
  · exact encode_of_formatN h6 rfl h
  · exact encode_of_formatN h7 rfl h

/-! ### The words that decode (R74, R75) -/

/-- Every command's word passes both checks and selects the command's own row (R74, R75). -/
theorem encode_wellFormed_and_rowSelects (i : Instr) :
    wordWellFormed (encode i) = true ∧ rowSelects (rowOf i) (encode i) = true := by
  cases i with
  | init => exact Laws.Encoding.init
  | beginFrame => exact Laws.Encoding.beginFrame
  | push r g b => exact Laws.Encoding.push r g b
  | trig => exact Laws.Encoding.trig
  | waitb => exact Laws.Encoding.waitb
  | waits => exact Laws.Encoding.waits
  | cancel => exact Laws.Encoding.cancel

theorem rowOf_mem_opcodeMap (i : Instr) : rowOf i ∈ opcodeMap := by
  cases i <;> simp [rowOf, opcodeMap]

/-- A row whose mask has every bit is selected by its match value alone (R74). -/
theorem eq_of_rowSelects_allOnes {m w : Word} (h : rowSelects ⟨m, BitVec.allOnes 32⟩ w = true) : m = w := by
  rw [rowSelects, BitVec.and_allOnes, beq_iff_eq] at h
  exact h.symm

/-- PUSH's row is selected by the opcode alone (R74). -/
theorem opcodeOf_of_rowSelects_push {w : Word} (h : rowSelects ⟨0x03000000#32, 0xFF000000#32⟩ w = true) :
    opcodeOf w = 0x03#8 := by
  have hmask : opcodeOf 0xFF000000#32 = BitVec.allOnes 8 := by decide
  calc opcodeOf w
      = opcodeOf (w &&& 0xFF000000#32) := by
        rw [opcodeOf, opcodeOf, BitVec.extractLsb'_and, ← opcodeOf, ← opcodeOf, hmask, BitVec.and_allOnes]
    _ = opcodeOf 0x03000000#32 := congrArg opcodeOf (beq_iff_eq.mp h)
    _ = 0x03#8 := by decide

/-- A word that selects a row of the map is the word of a command of that row (R74). -/
theorem exists_encode_of_rowSelects {row : OpcodeRow} {w : Word} (hrow : row ∈ opcodeMap)
    (h : rowSelects row w = true) : ∃ i, rowOf i = row ∧ encode i = w := by
  simp only [opcodeMap, List.mem_cons, List.not_mem_nil, or_false] at hrow
  rcases hrow with rfl | rfl | rfl | rfl | rfl | rfl | rfl
  · exact ⟨.init, rfl, eq_of_rowSelects_allOnes h⟩
  · exact ⟨.beginFrame, rfl, eq_of_rowSelects_allOnes h⟩
  · exact ⟨_, rfl, encode_push_of_opcodeOf (opcodeOf_of_rowSelects_push h)⟩
  · exact ⟨.trig, rfl, eq_of_rowSelects_allOnes h⟩
  · exact ⟨.waitb, rfl, eq_of_rowSelects_allOnes h⟩
  · exact ⟨.waits, rfl, eq_of_rowSelects_allOnes h⟩
  · exact ⟨.cancel, rfl, eq_of_rowSelects_allOnes h⟩

theorem encode_injective : Function.Injective encode := by
  intro i j h
  have hok : Except.ok i = Except.ok (ε := DecodeError) j := by rw [← decode_encode i, h, decode_encode]
  injection hok

/-- The word of a command selects the row of the command (R74). -/
theorem rowSelects_of_decode {w : Word} {i : Instr} (h : decode w = .ok i) : rowSelects (rowOf i) w = true := by
  obtain ⟨-, hrow⟩ := encode_wellFormed_and_rowSelects i
  exact encode_of_decode h ▸ hrow

/-- The list of illegal words of R75. -/
def IllegalWord (w : Word) : Prop :=
  (opcodeOf w).toNat = 0 ∨ 8 ≤ (opcodeOf w).toNat ∨ (opcodeOf w ≠ 0x03#8 ∧ operandOf w ≠ 0#24)

theorem illegalWord_of_formatN {w : Word} {op : BitVec 8} {i : Instr} {e : DecodeError} (hop : opcodeOf w = op)
    (hne : op ≠ 0x03#8) (h : formatN w i = .error e) : IllegalWord w :=
  .inr (.inr ⟨hop ▸ hne, operandOf_ne_zero_of_formatN h⟩)

theorem illegalWord_of_decode {w : Word} {e : DecodeError} (h : decode w = .error e) : IllegalWord w := by
  unfold decode at h
  split_ifs at h with h1 h2 h3 h4 h5 h6 h7
  · exact illegalWord_of_formatN h1 (by decide) h
  · exact illegalWord_of_formatN h2 (by decide) h
  · exact illegalWord_of_formatN h4 (by decide) h
  · exact illegalWord_of_formatN h5 (by decide) h
  · exact illegalWord_of_formatN h6 (by decide) h
  · exact illegalWord_of_formatN h7 (by decide) h
  · have hreserved : (opcodeOf w).toNat = 0 ∨ 8 ≤ (opcodeOf w).toNat := by bv_omega
    exact hreserved.imp_right .inl

/-- The word of a command is none of R75's list. -/
theorem not_illegalWord_encode (i : Instr) : ¬IllegalWord (encode i) := by
  obtain ⟨hw, -⟩ := encode_wellFormed_and_rowSelects i
  simp only [wordWellFormed, wordOpcodeLegal, wordReservedClear, Bool.and_eq_true, Bool.or_eq_true, decide_eq_true_eq,
    beq_iff_eq] at hw
  obtain ⟨⟨hlo, hhi⟩, hclear⟩ := hw
  rintro (h | h | ⟨hop, hoperand⟩)
  · exact absurd hlo (by rw [← opcodeOf, h]; decide)
  · exact absurd hhi (by rw [← opcodeOf]; omega)
  · exact hclear.elim hop hoperand

end Sys2Proof

namespace Sys2Proof.Machine

/-! ### The slots of a chunk (R79, R80) -/

section
variable (r g b : Byte) (j : Nat)

/-- Green is the most significant byte of a colour's 24 bits, then red, then blue (R79). -/
theorem getLsbD_grb24_green : (grb24 r g b).getLsbD (16 + j) = g.getLsbD j := by
  rw [grb24, BitVec.getLsbD_append, if_neg (by omega), BitVec.getLsbD_append, if_neg (by omega)]
  congr 1
  omega

theorem getLsbD_grb24_red (hj : j < 8) : (grb24 r g b).getLsbD (8 + j) = r.getLsbD j := by
  rw [grb24, BitVec.getLsbD_append, if_neg (by omega), BitVec.getLsbD_append, if_pos (by omega), Nat.add_sub_cancel_left]

theorem getLsbD_grb24_blue (hj : j < 8) : (grb24 r g b).getLsbD j = b.getLsbD j := by
  rw [grb24, BitVec.getLsbD_append, if_pos hj]

end

end Sys2Proof.Machine
end

section
/-! PROOFS. An illegal word at CMD (R75, R164), and the branch and the return of a write (R84, R147, R170). -/

namespace Sys2Proof.Machine

/-! ### An illegal word delivered to CMD (R75, R164) -/

/-- A store to CMD of a word without a command raises ILLEGAL_COMMAND (R164). -/
theorem busStore_illegal {a : HostAddr} {v : BusData} {e : DecodeError} {u : State} (ha : a.resolve u.cfg = some 0)
    (hd : decode (v.setWidth 32) = .error e) (hf : u.fault = false) :
    busStore a 4 v u = .next (raiseFault .illegalCommand u) := by
  simp [busStore, ha, memWrite, deliver, hf, hd]

/-- The first fault sets both FAULT and FCODE (R28, R181). -/
theorem raiseFault_of_not_fault {c : Cause} {s : State} (hf : s.fault = false) :
    raiseFault c s = { s with fault := true, fcode := c.code, host := { s.host with reply := .faulted c } } := by
  simp [raiseFault, recordFault, hf]

/-! ### The branch on RESULT (R84) -/

/-- WRITE's load of STATUS shows RESULT (R24, R84). -/
theorem statusResult_statusWord (s : State) : statusResult ((statusWord s).setWidth 64) = s.result.code := by
  obtain ⟨-, -, hresult, -⟩ := statusWord_fields s
  rw [← hresult]
  exact BitVec.extractLsb'_setWidth_of_le (by decide)

theorem ResultFlag.code_eq_two_iff (r : ResultFlag) : r.code = 2#2 ↔ r = .triggerError := by
  cases r <;> decide

/-- With RESULT TRIGGER_ERROR the write returns the error and does not wait (R84). -/
theorem checkResult_of_triggerError (mode : WaitMode) {s : State} (h : s.result = .triggerError) :
    checkResult mode s = recordResult .triggerError (memRead 0x004 4 s) :=
  if_pos ((statusResult_statusWord s).trans ((ResultFlag.code_eq_two_iff _).mpr h))

/-- With any other RESULT the wait command and the write's end come next (R84). -/
theorem checkResult_of_ne_triggerError (mode : WaitMode) {s : State} (h : s.result ≠ .triggerError) :
    checkResult mode s =
      setAgenda (asTask s.host.task [storeCommand (waitCommand mode), .finishWrite .ok] ++ s.agenda)
        (forgetElapsed (memRead 0x004 4 s)) :=
  if_neg fun hc => h ((ResultFlag.code_eq_two_iff _).mp ((statusResult_statusWord s).symm.trans hc))

/-! ### The write's end (R147, R170) -/

theorem finishWrite_agenda (r : WriteResult) (s : State) : (finishWrite r s).agenda = s.agenda := by
  cases r with
  | triggerError => rfl
  | ok => unfold finishWrite; dsimp only; split <;> rfl

/-- Ok is returned only after a wait that lasted its delay (R147, R170). -/
theorem finishWrite_ok_results (s : State) :
    (finishWrite .ok s).host.results
      = if s.host.task ∈ s.host.elapsed then (s.host.task, .ok) :: s.host.results else s.host.results := by
  unfold finishWrite
  dsimp only
  split <;> rfl

/-! ### Who notes a finished wait, and who returns (R147, R170) -/

/-- No command notes a finished wait or returns from a write (R147, R170). -/
theorem CommandEffect.records_eq {u t : State} {i : Instr} (h : CommandEffect u i t) :
    t.host.elapsed = u.host.elapsed ∧ t.host.results = u.host.results := by
  cases h <;> simp

/-- A host step notes no task (R147). -/
theorem HostEffect.elapsed_subset {op : HostOp} {u t : State} (h : HostEffect op u t) {x : Nat}
    (hx : x ∈ t.host.elapsed) : x ∈ u.host.elapsed := by
  cases h
  case command ht => exact ht.records_eq.1 ▸ hx
  case returned hu _ => obtain rfl | ⟨r, rfl⟩ := hu <;> exact ((mem_otherTasks ..).mp hx).1
  case waitNext => exact ((mem_otherTasks ..).mp hx).1
  all_goals exact hx

/-- A host step that changes the results is one return of its task (R170). -/
theorem HostEffect.results_cases {op : HostOp} {u t : State} (h : HostEffect op u t)
    (hr : t.host.results ≠ u.host.results) :
    ∃ r, t.host.results = (u.host.task, r) :: u.host.results ∧ (r = .ok → u.host.task ∈ u.host.elapsed) := by
  cases h
  case command ht => exact absurd ht.records_eq.2 hr
  case returned r u' hu hok => obtain rfl | ⟨_, rfl⟩ := hu <;> exact ⟨r, rfl, hok⟩
  all_goals exact absurd rfl hr

theorem tick_results (s : State) : (tick s).host.results = s.host.results := by
  rw [tick, ← tickSeq_host s]
  rcases tickTimer_cases (tickSeq s) with ⟨h, -⟩ | ⟨-, -, ⟨h, -⟩ | ⟨h, -⟩ | ⟨h, -⟩⟩ <;> rw [h] <;> rfl

theorem waitingTask_eq_some_iff (h : HostAgent) (x : Nat) :
    waitingTask h = some x ↔ if h.blocked then x = h.task else h.suspended = some x := by
  unfold waitingTask
  split <;> simp [eq_comm]

/-- A tick notes a task only where the wait of that task expires (R145, R147). -/
theorem tick_elapsed_cases {s : State} {x : Nat} (hx : x ∈ (tick s).host.elapsed) :
    x ∈ s.host.elapsed
      ∨ (s.owner = .waiting ∧ (tick s).owner = .idle ∧ s.timer.failed = false ∧ s.timer.remain ≤ 1
          ∧ waitingTask s.host = some x) := by
  rw [← tickSeq_host, ← tickSeq_owner s, ← tickSeq_timer s]
  unfold tick at hx ⊢
  rcases tickTimer_cases (tickSeq s) with ⟨h, -⟩ | ⟨ho, hf, ⟨h, -⟩ | ⟨h, hr⟩ | ⟨h, -⟩⟩
  · exact .inl (h ▸ hx)
  · exact .inl (by rw [h] at hx; exact hx)
  · rw [h] at hx ⊢
    exact ((mem_noteElapsed _ _).mp hx).symm.imp_right fun hw => ⟨ho, rfl, hf, hr, hw⟩
  · exact .inl (by rw [h] at hx; exact hx)

end Sys2Proof.Machine
end

section
/-! PROOFS. The statements of the encoding (30_encoding.md), with the pseudo-instruction WRITE. -/

namespace Sys2Proof.Safety

open Sys2Proof Sys2Proof.Machine

/-- Settles O1: PUSH's fields are read back from its word, and a word that decodes consists of the fields that were read. -/
theorem decodeAndEncodeAgree : Obligations.DecodeAndEncodeAgree := by
  unfold Obligations.DecodeAndEncodeAgree
  exact ⟨fun i _ => decode_encode i, fun _ _ => encode_of_decode⟩

/-- Settles O2: the words that select a row are the words of its commands, and two commands never share a word. -/
theorem decodeFollowsOpcodeMap : Obligations.DecodeFollowsOpcodeMap := by
  unfold Obligations.DecodeFollowsOpcodeMap
  refine ⟨fun w => ⟨?_, ?_⟩, fun w i h => ⟨rowOf_mem_opcodeMap i, rowSelects_of_decode h⟩, ?_⟩
  · rintro ⟨i, h⟩
    exact ⟨rowOf i, rowOf_mem_opcodeMap i, rowSelects_of_decode h⟩
  · rintro ⟨row, hrow, h⟩
    obtain ⟨i, -, rfl⟩ := exists_encode_of_rowSelects hrow h
    exact ⟨i, decode_encode i⟩
  · intro w p hp q hq hpw hqw
    obtain ⟨i, rfl, hi⟩ := exists_encode_of_rowSelects hp hpw
    obtain ⟨j, rfl, hj⟩ := exists_encode_of_rowSelects hq hqw
    rw [encode_injective (hi.trans hj.symm)]

/-- Settles O3: an error comes from a word of the list, and a word of the list is not the word of a command. -/
theorem illegalWordsHaveNoCommand : Obligations.IllegalWordsHaveNoCommand := by
  unfold Obligations.IllegalWordsHaveNoCommand
  refine fun w => ⟨fun ⟨e, h⟩ => illegalWord_of_decode h, fun hw => ?_⟩
  match hd : decode w with
  | .error e => exact ⟨e, rfl⟩
  | .ok i => exact absurd hw (encode_of_decode hd ▸ not_illegalWord_encode i)

/-- Settles O4: each of the words is the word of its command. -/
theorem decodeOfWrittenWords : Obligations.DecodeOfWrittenWords := by
  unfold Obligations.DecodeOfWrittenWords
  exact ⟨decode_encode .init, decode_encode .beginFrame, decode_encode .trig, decode_encode .waitb, decode_encode .waits,
    decode_encode .cancel, decode_encode (.push 255 0 0), decode_encode (.push 0 0 255),
    decode_encode (.push 0x12 0x34 0x56)⟩

/-- Settles O5: the slot's bit, counted from the least significant one, is bit 7-k of its byte. -/
theorem chunkSlotsCarryGreenRedBlue : Obligations.ChunkSlotsCarryGreenRedBlue := by
  unfold Obligations.ChunkSlotsCarryGreenRedBlue
  intro r g b k hk
  have hgreen : 23 - k = 16 + (7 - k) := by omega
  have hred : 23 - (8 + k) = 8 + (7 - k) := by omega
  have hblue : 23 - (16 + k) = 7 - k := by omega
  refine ⟨?_, ?_, ?_⟩
  · rw [chunkCode, hgreen, getLsbD_grb24_green]
  · rw [chunkCode, hred, getLsbD_grb24_red _ _ _ _ (by omega)]
  · rw [chunkCode, hblue, getLsbD_grb24_blue _ _ _ _ (by omega)]

/-- Settles O9: a word of R75's list has no command, and the host's turn changes nothing but its own records. -/
theorem stepRaisesIllegalCommand : Obligations.StepRaisesIllegalCommand := by
  unfold Obligations.StepRaisesIllegalCommand
  intro s task a v rest hn ha hw hf
  obtain ⟨e, hd⟩ := (illegalWordsHaveNoCommand (v.setWidth 32)).mpr hw
  rw [step_of_nextEvent_eq_host hn]
  exact (busStore_illegal (u := hostTurn task rest s) ha hd hf).trans (congrArg _ (raiseFault_of_not_fault hf))

/-- Settles O53: the branch is that of RESULT; the timer's expiry alone notes a task, and only a return adds a result. -/
theorem writeBranchesOnResult : Obligations.WriteBranchesOnResult := by
  unfold Obligations.WriteBranchesOnResult
  refine ⟨fun s task mode rest hn => ?_, fun s task rest hn => ?_, fun s t hs x hx hnew => ?_, fun s t hs hr => ?_⟩
  · refine ⟨_, step_of_nextEvent_eq_host hn, fun hr => ?_, fun hr => ?_⟩
    · rw [checkResult_of_triggerError mode (s := hostTurn task rest s) hr]
      exact ⟨rfl, rfl⟩
    · rw [checkResult_of_ne_triggerError mode (s := hostTurn task rest s) hr]
      exact ⟨rfl, fun hx => ((mem_otherTasks ..).mp hx).2 rfl, rfl⟩
  · exact ⟨_, step_of_nextEvent_eq_host hn, finishWrite_agenda .ok (hostTurn task rest s),
      finishWrite_ok_results (hostTurn task rest s)⟩
  · obtain ⟨rest, rfl⟩ | ⟨task, op, rest, -, he⟩ | ⟨rest, -, rfl⟩ := step_cases hs
    · obtain ⟨ho, hidle, hf, hremain, hw⟩ := (tick_elapsed_cases hx).resolve_left hnew
      exact ⟨ho, hidle, hf, hremain, (waitingTask_eq_some_iff _ _).mp hw⟩
    · exact absurd (he.elapsed_subset hx) hnew
    · exact absurd hx hnew
  · obtain ⟨rest, rfl⟩ | ⟨task, op, rest, -, he⟩ | ⟨rest, -, rfl⟩ := step_cases hs
    · exact absurd (tick_results (setAgenda rest s)) hr
    · exact ⟨task, he.results_cases hr⟩
    · exact absurd rfl hr

end Sys2Proof.Safety
end

section
/-! PROOFS. The timing constants' own facts (R100, R102 to R105): the conversion to ticks, the codes and the delay in ticks. -/

namespace Sys2Proof.Machine

/-- The conversion in one division: the factor 2 of `round_half_up` cancels (R100). -/
theorem toTicks_eq (ns : Nat) : toTicks ns = (ns * 16 + 500) / 1000 := by
  unfold toTicks roundHalfUp ticksPerUs
  omega

/-- No tie (R103): 8 divides 16 ns and 1000, and so the remainder, but it does not divide 500. -/
theorem sixteen_mul_mod_ne_tie (ns : Nat) : 16 * ns % 1000 ≠ 500 := by
  intro htie
  have hdvd : 8 ∣ 16 * ns % 1000 :=
    (Nat.dvd_mod_iff (by decide)).mpr (Nat.dvd_mul_right_of_dvd (by decide) ns)
  exact absurd (htie ▸ hdvd) (by decide)

/-- Without ties the nearest integer is unique (R103): a nearest `q` could differ from `to_ticks` only half way below `q + 1`. -/
theorem toTicks_eq_of_nearest {ns q : Nat} (hlow : 16 * ns ≤ 1000 * q + 500) (hhigh : 1000 * q ≤ 16 * ns + 500) :
    toTicks ns = q := by
  have hne : 16 * ns ≠ 1000 * q + 500 := fun h => sixteen_mul_mod_ne_tie ns (by rw [h, Nat.mul_add_mod])
  rw [toTicks_eq]
  exact Nat.div_eq_of_lt_le (by omega) (by omega)

theorem periodTicks_eq : periodTicks = 20 := by decide

theorem resetTicks_eq : resetTicks = 4320 := by decide

/-- The completion delay in ticks, for each LED and the gap (R105). -/
theorem delayTicks_eq (p : Config.Params) : delayTicks p = 480 * p.ledCount + 4320 := by
  rw [delayTicks, delayUs_eq, ticksPerUs]
  omega

/-- The slots' periods and the gap in ticks (R105, R127). -/
theorem capacity_mul_periodTicks_add_resetTicks (p : Config.Params) :
    capacity p * periodTicks + resetTicks = 480 * p.ledCount + 4320 := by
  rw [capacity, periodTicks_eq, resetTicks_eq]
  omega

end Sys2Proof.Machine
end

section
/-! PROOFS. The statements of the timing constants (40_timing_constants.md). -/

namespace Sys2Proof.Safety

open Sys2Proof Sys2Proof.Machine

/-- Settles O6: the constants and codes are closed values; the conversion and its freedom from ties hold for every `ns`. -/
theorem timingConstants : Obligations.TimingConstants := by
  unfold Obligations.TimingConstants
  have hduties : zeroDuty = 6 ∧ oneDuty = 13 := by decide
  have hcodes : zeroCode = 0x8006#16 ∧ oneCode = 0x800D#16 := by decide
  have hcanonical : canonical zeroCode = true ∧ canonical oneCode = true := by decide
  have hmarker : zeroCode &&& 0x8000#16 = oneCode &&& 0x8000#16 := by decide
  obtain ⟨hzeroDuty, honeDuty⟩ := hduties
  obtain ⟨hzeroCode, honeCode⟩ := hcodes
  obtain ⟨hzeroCanonical, honeCanonical⟩ := hcanonical
  exact ⟨toTicks_eq, hzeroDuty, honeDuty, periodTicks_eq, resetTicks_eq, hzeroCode, honeCode, hzeroCanonical,
    honeCanonical, hmarker, sixteen_mul_mod_ne_tie, fun _ _ => toTicks_eq_of_nearest⟩

/-- Settles O7: the delay and the pass are the same ticks for each LED and the gap. -/
theorem delayEqualsFrameTime : Obligations.DelayEqualsFrameTime := by
  unfold Obligations.DelayEqualsFrameTime
  exact fun p => ⟨delayUs_eq p, delayTicks_eq p,
    (delayTicks_eq p).trans (capacity_mul_periodTicks_add_resetTicks p).symm⟩

end Sys2Proof.Safety
end

section
/-! PROOFS. The encoder's commands (R111, R112), what a chunk decodes to (R81), a list of colours pushed one after another
(R113, R114), and which host step writes the buffer (R110). -/

namespace Sys2Proof.Machine

open Sys2Proof.Safety

/-! ### BEGIN and PUSH (R111, R112) -/

theorem exec_beginFrame_of_idle {s : State} (hf : s.fault = false) (ho : s.owner = .idle) :
    exec .beginFrame s = .next (startFrame s) := by
  simp [exec, execBegin, beginEffect, hf, ho]

theorem exec_push (r g b : Byte) (s : State) : exec (.push r g b) s = .next (pushEffect r g b s) := rfl

theorem pushEffect_of_ne_ledCount {r g b : Byte} {s : State} (hf : s.fault = false) (ho : s.owner = .encoding)
    (hc : s.cursor ≠ s.cfg.ledCount) : pushEffect r g b s = encodeColour r g b s := by
  simp [pushEffect, hf, ho, hc]

theorem pushEffect_of_eq_ledCount {r g b : Byte} {s : State} (hf : s.fault = false) (ho : s.owner = .encoding)
    (hc : s.cursor = s.cfg.ledCount) : pushEffect r g b s = raiseFault .capacityOverflow s := by
  simp [pushEffect, hf, ho, hc]

theorem exec_init_of_not_configOk {s : State} (hf : s.fault = false) (ho : s.owner = .uninit)
    (hc : configOk s.cfg = false) : exec .init s = .next (raiseFault .configError s) := by
  simp [exec, execInit, initEffect, hf, ho, hc]

/-! ### Codes and the chunks they fill (R79, R81) -/

/-- A bit's code as a number (R79, R102). -/
theorem codeOfBit_eq (bit : Bool) : codeOfBit bit = if bit then 0x800D#16 else 0x8006#16 := by
  cases bit <;> decide

/-- The two codes differ, so a code gives its bit back (R81). -/
@[simp] theorem bitOfCode_codeOfBit (bit : Bool) : bitOfCode (codeOfBit bit) = some bit := by
  cases bit <;> decide

/-- Slots that hold the codes of the low `n` bits of `x`, most significant first, append those bits to `acc` (R81). -/
theorem decodeBits_of_readSlot {m : FrameBuffer} {x : Nat} (n i acc : Nat)
    (h : ∀ k, k < n → readSlot m (i + k) = codeOfBit (x.testBit (n - 1 - k))) :
    decodeBits m i n acc = some (acc * 2 ^ n + x % 2 ^ n) := by
  induction n generalizing i acc with
  | zero => simp [decodeBits, Nat.mod_one]
  | succ n ih =>
    have hfirst : readSlot m i = codeOfBit (x.testBit n) := h 0 n.succ_pos
    have hrest : ∀ k, k < n → readSlot m (i + 1 + k) = codeOfBit (x.testBit (n - 1 - k)) := fun k hk => by
      rw [Nat.add_assoc, Nat.add_comm 1 k, h (k + 1) (by omega)]
      congr 2
      omega
    have hbits : (2 * acc + (x.testBit n).toNat) * 2 ^ n + x % 2 ^ n = acc * 2 ^ (n + 1) + x % 2 ^ (n + 1) := by
      rw [Nat.toNat_testBit, Nat.mod_pow_succ, Nat.pow_succ]
      ring
    simp only [decodeBits, hfirst, bitOfCode_codeOfBit, ih (i + 1) _ hrest, hbits]

/-- The fields of a colour's 24 bits (R79). -/
theorem colour_grb24 (r g b : Byte) : (grb24 r g b).extractLsb' 8 8 = r ∧ (grb24 r g b).extractLsb' 16 8 = g
    ∧ (grb24 r g b).extractLsb' 0 8 = b := by
  simp (disch := decide) only [grb24, BitVec.extractLsb'_append_eq_of_le,
    BitVec.extractLsb'_append_eq_of_add_le, BitVec.extractLsb'_eq_self, Nat.reduceSub, and_self]

/-- A chunk that holds a colour's codes decodes to the colour (R80, R81). -/
theorem decodeChunk_of_readSlot {m : FrameBuffer} {i : Nat} {c : Color}
    (h : ∀ k, k < 24 → readSlot m (24 * i + k) = chunkCode c.r c.g c.b k) : decodeChunk m i = some c := by
  have hbits : decodeBits m (24 * i) 24 0 = some (grb24 c.r c.g c.b).toNat := by
    rw [decodeBits_of_readSlot (x := (grb24 c.r c.g c.b).toNat) 24 (24 * i) 0 h, Nat.zero_mul, Nat.zero_add,
      Nat.mod_eq_of_lt (grb24 c.r c.g c.b).isLt]
  obtain ⟨hr, hg, hb⟩ := colour_grb24 c.r c.g c.b
  simp only [decodeChunk, hbits, BitVec.ofNat_toNat, BitVec.setWidth_eq, hr, hg, hb]

/-- A byte of the buffer is the low or the high half of its slot (R50). -/
theorem readByte_eq_extractLsb'_readSlot (m : FrameBuffer) (a : Nat) :
    readByte m a = (readSlot m (a / 2)).extractLsb' (8 * (a % 2)) 8 := by
  obtain ⟨i, rfl | rfl⟩ := Nat.even_or_odd' a
  · rw [Nat.mul_div_cancel_left i (by decide), Nat.mul_mod_right]
    exact BitVec.extractLsb'_append_eq_right.symm
  · have hi : (2 * i + 1) / 2 = i := by omega
    have hodd : (2 * i + 1) % 2 = 1 := by omega
    rw [hi, hodd]
    exact BitVec.extractLsb'_append_eq_left.symm

/-! ### PUSH of a list of colours (R113, R114) -/

/-- `n` more PUSHes take effect: FAULT = 0, in ENCODING, and `n` chunks are left (R112). -/
structure CanPush (n : Nat) (s : State) : Prop where
  not_faulted : s.fault = false
  encoding : s.owner = .encoding
  room : s.cursor + n ≤ s.cfg.ledCount

/-- After BEGIN in IDLE as many PUSHes take effect as there are LEDs, from chunk 0 on, and the buffer is as it was (R111). -/
theorem canPush_of_exec_beginFrame {s t : State} {n : Nat} (hf : s.fault = false) (ho : s.owner = .idle)
    (hn : n ≤ s.cfg.ledCount) (h : exec .beginFrame s = .next t) : CanPush n t ∧ t.cursor = 0 ∧ t.buf = s.buf := by
  rw [exec_beginFrame_of_idle hf ho] at h
  injection h with h
  subst h
  exact ⟨⟨hf, rfl, by simpa using hn⟩, rfl, rfl⟩

section
variable {n : Nat} {s : State} (r g b : Byte)

/-- With a chunk left PUSH writes it. -/
theorem CanPush.pushEffect_eq (h : CanPush (n + 1) s) : pushEffect r g b s = encodeColour r g b s :=
  pushEffect_of_ne_ledCount h.not_faulted h.encoding (by have := h.room; omega)

/-- PUSH takes one of the chunks left. -/
theorem CanPush.encodeColour (h : CanPush (n + 1) s) : CanPush n (encodeColour r g b s) where
  not_faulted := by simpa using h.not_faulted
  encoding := by simpa using h.encoding
  room := by have := h.room; simp only [encodeColour_cursor, encodeColour_cfg]; omega

end

theorem pushAll_cons {c : Color} {cs : List Color} {s : State} (h : CanPush (cs.length + 1) s) :
    pushAll (c :: cs) s = pushAll cs (encodeColour c.r c.g c.b s) := by
  rw [pushAll, h.pushEffect_eq]

theorem pushAll_cursor {cs : List Color} {s : State} (h : CanPush cs.length s) :
    (pushAll cs s).cursor = s.cursor + cs.length := by
  induction cs generalizing s with
  | nil => rfl
  | cons c cs ih =>
    rw [pushAll_cons h, ih (h.encodeColour ..), encodeColour_cursor, List.length_cons]
    omega

/-- The PUSHes write the chunks from the cursor on, one for each colour, and no other byte (R112, R113). -/
theorem readByte_pushAll_outside {cs : List Color} {s : State} (h : CanPush cs.length s) {a : Nat}
    (ha : a < 48 * s.cursor ∨ 48 * (s.cursor + cs.length) ≤ a) :
    readByte (pushAll cs s).buf a = readByte s.buf a := by
  induction cs generalizing s with
  | nil => rfl
  | cons c cs ih =>
    rw [List.length_cons] at ha
    obtain ⟨-, hbytes, -⟩ := encodeColour_spec c.r c.g c.b s
    rw [pushAll_cons h, ih (h.encodeColour ..) (by rw [encodeColour_cursor]; omega), hbytes a (by omega)]

/-- Chunk `i` from the cursor on holds the codes of colour `i` (R114): its own PUSH writes it, and the later ones, whose
chunks lie behind it, leave it. -/
theorem readSlot_pushAll {cs : List Color} {s : State} (h : CanPush cs.length s) {i k : Nat} {c : Color}
    (hi : cs[i]? = some c) (hk : k < 24) :
    readSlot (pushAll cs s).buf (24 * (s.cursor + i) + k) = chunkCode c.r c.g c.b k := by
  induction cs generalizing s i with
  | nil => simp at hi
  | cons c' cs ih =>
    have h' := h.encodeColour c'.r c'.g c'.b
    rw [pushAll_cons h]
    cases i with
    | zero =>
      obtain rfl : c' = c := by simpa using hi
      obtain ⟨hslots, -, -⟩ := encodeColour_spec c'.r c'.g c'.b s
      have hkept : ∀ a, a < 48 * (s.cursor + 1) →
          readByte (pushAll cs (encodeColour c'.r c'.g c'.b s)).buf a
            = readByte (encodeColour c'.r c'.g c'.b s).buf a :=
        fun a ha => readByte_pushAll_outside h' (.inl (by rwa [encodeColour_cursor]))
      rw [Nat.add_zero, readSlot_congr (hkept _ (by omega)) (hkept _ (by omega)), hslots k hk]
    | succ i =>
      have hchunk := ih h' hi
      rw [encodeColour_cursor] at hchunk
      rw [← hchunk]
      congr 1
      omega

/-- Equal buffers stay equal under the same PUSHes from the same cursor on (R114): a byte in a pushed chunk is one of the
colour's codes, and any other byte is as before. -/
theorem readByte_pushAll_congr {cs : List Color} {s₁ s₂ : State} (h₁ : CanPush cs.length s₁) (h₂ : CanPush cs.length s₂)
    (hc : s₁.cursor = s₂.cursor) (hbuf : ∀ a, readByte s₁.buf a = readByte s₂.buf a) (a : Nat) :
    readByte (pushAll cs s₁).buf a = readByte (pushAll cs s₂).buf a := by
  by_cases ha : a < 48 * s₁.cursor ∨ 48 * (s₁.cursor + cs.length) ≤ a
  · rw [readByte_pushAll_outside h₁ ha, readByte_pushAll_outside h₂ (hc ▸ ha), hbuf]
  · have hi : cs[a / 48 - s₁.cursor]? = some cs[a / 48 - s₁.cursor] := List.getElem?_eq_getElem (by omega)
    have hk : a / 2 % 24 < 24 := Nat.mod_lt _ (by decide)
    have hslot : a / 2 = 24 * (s₁.cursor + (a / 48 - s₁.cursor)) + a / 2 % 24 := by omega
    have hcode₁ := readSlot_pushAll h₁ hi hk
    have hcode₂ := readSlot_pushAll h₂ hi hk
    rw [← hslot] at hcode₁
    rw [← hc, ← hslot] at hcode₂
    rw [readByte_eq_extractLsb'_readSlot, hcode₁, readByte_eq_extractLsb'_readSlot, hcode₂]

/-! ### Which host step writes the buffer (R110) -/

/-- PUSH alone of the commands writes the buffer (R110). -/
theorem CommandEffect.buf_cases {u t : State} {i : Instr} (h : CommandEffect u i t) :
    t.buf = u.buf ∨ ∃ r g b, i = .push r g b ∧ u.owner = .encoding ∧ u.cursor ≠ u.cfg.ledCount
      ∧ t.buf = (encodeColour r g b u).buf := by
  cases h
  case push r g b ho hc => exact .inr ⟨r, g, b, rfl, ho, hc, rfl⟩
  all_goals exact .inl (by simp)

/-- A host step writes the buffer by a PUSH delivered to CMD or by a store of a slot, and else leaves it (R110, R153). -/
theorem HostEffect.buf_cases {op : HostOp} {u t : State} (h : HostEffect op u t) :
    t.buf = u.buf
      ∨ (u.fault = false ∧ ∃ addr v r g b, op = .store addr 4 v ∧ addr.resolve u.cfg = some 0
          ∧ decode (v.setWidth 32) = .ok (.push r g b) ∧ u.owner = .encoding ∧ u.cursor ≠ u.cfg.ledCount
          ∧ t.buf = (encodeColour r g b u).buf)
      ∨ (u.fault = false ∧ ∃ addr v i, op = .store addr 2 v ∧ addr.resolve u.cfg = some (offsetOfSlot i)
          ∧ i < capacity u.cfg ∧ u.owner = .idle ∧ t.buf = writeSlot u.buf i (v.setWidth 16)) := by
  cases h
  case stored addr v i hop ha hf ho hi => exact .inr (.inr ⟨hf, addr, v, i, hop, ha, hi, ho, rfl⟩)
  case command addr v i hop ha hd hf ht =>
    obtain hbuf | ⟨r, g, b, rfl, ho, hc, hbuf⟩ := ht.buf_cases
    · exact .inl hbuf
    · exact .inr (.inl ⟨hf, addr, v, r, g, b, hop, ha, hd, ho, hc, hbuf⟩)
  case returned hu _ => obtain rfl | ⟨r, rfl⟩ := hu <;> exact .inl rfl
  all_goals exact .inl rfl

/-- A byte that PUSH changes lies in the chunk at the cursor (R112). -/
theorem mem_chunk_of_readByte_encodeColour_ne {r g b : Byte} {s : State} {a : Nat}
    (h : readByte (encodeColour r g b s).buf a ≠ readByte s.buf a) : 48 * s.cursor ≤ a ∧ a < 48 * s.cursor + 48 := by
  obtain ⟨-, hbytes, -⟩ := encodeColour_spec r g b s
  by_contra hout
  exact h (hbytes a (by omega))

/-- A byte that a slot's store changes is one of the slot (R50, R162). -/
theorem eq_div_two_of_readByte_writeSlot_ne {m : FrameBuffer} {i a : Nat} {w : Code}
    (h : readByte (writeSlot m i w) a ≠ readByte m a) : i = a / 2 := by
  by_contra hi
  exact h (readByte_writeSlot_other m w (by omega) (by omega))

end Sys2Proof.Machine
end

section
/-! PROOFS. The statements of the frame encoder (41_frame_encoder.md). -/

namespace Sys2Proof.Safety

open Sys2Proof Sys2Proof.Machine

/-- Settles O54: each colour's chunk holds its codes after all the PUSHes, and they decode to it. -/
theorem encodedColoursDecode : Obligations.EncodedColoursDecode := by
  unfold Obligations.EncodedColoursDecode
  intro s t colours hf ho hlen hbegin i c hi
  obtain ⟨hcan, hcursor, -⟩ := canPush_of_exec_beginFrame hf ho hlen hbegin
  refine decodeChunk_of_readSlot fun k hk => ?_
  simpa [hcursor] using readSlot_pushAll hcan hi hk

/-- Settles O21: PUSH is `encodeColour`, whose effect and frame are known; its codes are the two of R102. -/
theorem pushEncodesOneColour : Obligations.PushEncodesOneColour := by
  unfold Obligations.PushEncodesOneColour
  intro r g b s hf ho hc
  obtain ⟨hslots, hbytes, hdirty⟩ := encodeColour_spec r g b s
  rw [exec_push, pushEffect_of_ne_ledCount hf ho hc]
  refine ⟨encodeColour r g b s, rfl, fun k hk => ?_, hbytes, encodeColour_powerOn r g b s, hdirty,
    encodeColour_frame r g b s⟩
  rw [hslots k hk, chunkCode, codeOfBit_eq, grb24]

/-- Settles O33: a tick leaves the buffer, and of the host steps only a PUSH and a slot's store write it. -/
theorem bufferChangesOnlyByPushOrIdleStore : Obligations.BufferChangesOnlyByPushOrIdleStore := by
  unfold Obligations.BufferChangesOnlyByPushOrIdleStore
  intro s t hp hs
  obtain ⟨rest, rfl⟩ | ⟨task, op, rest, hn, he⟩ := step_cases_of_not_powersOn hp hs
  · simp
  · obtain hbuf | ⟨hf, addr, v, r, g, b, rfl, ha, hd, ho, hc, hbuf⟩ | ⟨hf, addr, v, i, rfl, ha, hi, ho, hbuf⟩ :=
      he.buf_cases
    · simp [hbuf]
    · rw [hbuf]
      refine ⟨encodeColour_powerOn r g b (hostTurn task rest s), fun a hne => ⟨hf, task, addr, v, rest, .inl ?_⟩⟩
      have hchunk := mem_chunk_of_readByte_encodeColour_ne (s := hostTurn task rest s) hne
      exact ⟨hn, ha, ⟨r, g, b, hd⟩, ho, hc, hchunk⟩
    · rw [hbuf]
      refine ⟨rfl, fun a hne => ⟨hf, task, addr, v, rest, .inr ⟨hn, ⟨offsetOfSlot i, ha, ?_, ?_, ?_⟩, ho⟩⟩⟩
      · exact Nat.le_add_right ..
      · exact accessOk_offsetOfSlot .store hi
      · rw [slotOfOffset_offsetOfSlot]
        exact eq_div_two_of_readByte_writeSlot_ne hne

/-- Settles O55: the PUSHes begin at chunk 0 and write one chunk for each colour. -/
theorem unfilledTailIsKept : Obligations.UnfilledTailIsKept := by
  unfold Obligations.UnfilledTailIsKept
  intro s t colours hf ho hlen hbegin
  obtain ⟨hcan, hcursor, hbuf⟩ := canPush_of_exec_beginFrame hf ho hlen hbegin
  refine ⟨fun a ha => ?_, ?_⟩
  · rw [readByte_pushAll_outside hcan (.inr (by rwa [hcursor, Nat.zero_add])), hbuf]
  · rw [pushAll_cursor hcan, hcursor, Nat.zero_add]

/-- Settles O56: BEGIN leaves both buffers as they are and both cursors at 0, and the PUSHes keep them equal. -/
theorem encodingIsDeterministic : Obligations.EncodingIsDeterministic := by
  unfold Obligations.EncodingIsDeterministic
  intro s₁ s₂ t₁ t₂ colours hf₁ hf₂ ho₁ ho₂ hN hlen heq hbegin₁ hbegin₂
  obtain ⟨hcan₁, hcursor₁, hbuf₁⟩ := canPush_of_exec_beginFrame hf₁ ho₁ hlen hbegin₁
  obtain ⟨hcan₂, hcursor₂, hbuf₂⟩ := canPush_of_exec_beginFrame hf₂ ho₂ (hN ▸ hlen) hbegin₂
  obtain ⟨htail, -⟩ := unfilledTailIsKept s₁ t₁ colours hf₁ ho₁ hlen hbegin₁
  refine ⟨readByte_pushAll_congr hcan₁ hcan₂ (hcursor₁.trans hcursor₂.symm) ?_, fun i c hi k hk => ?_, htail⟩
  · rwa [hbuf₁, hbuf₂]
  · simpa [hcursor₁] using readSlot_pushAll hcan₁ hi hk

/-- Settles O20: BEGIN's effect in IDLE is `startFrame`. -/
theorem beginStartsFrame : Obligations.BeginStartsFrame := by
  unfold Obligations.BeginStartsFrame
  exact fun _ hf ho => exec_beginFrame_of_idle hf ho

/-- Settles O27: each check's failure raises its fault, and the first fault sets FAULT, FCODE and the mark alone. -/
theorem ownChecksRaise : Obligations.OwnChecksRaise := by
  unfold Obligations.OwnChecksRaise
  intro s r g b hf
  refine ⟨fun ho hc => ?_, fun ho hc => ?_⟩
  · rw [exec_push, pushEffect_of_eq_ledCount hf ho hc, raiseFault_of_not_fault hf]
    rfl
  · rw [exec_init_of_not_configOk hf ho hc, raiseFault_of_not_fault hf]
    rfl

end Sys2Proof.Safety
end

section
/-! PROOFS. The sequence transmitter: TRIG (R120 to R122), what one tick does to the line and the latch (R124, R125, R128),
where a pass stands after a number of ticks (R127), and the levels that it puts on the line (R129). -/

namespace Sys2Proof.Machine

open Sys2Proof.Safety

/-! ### TRIG (R120 to R122) -/

section
variable {s : State}

theorem refuses_of_busy (h : s.seq.phase ≠ .off) : refuses s = true := by
  simp [refuses, busy, h]

theorem refuses_of_off (h : s.seq.phase = .off) :
    refuses s = (s.cfg.trigMayRefuse && Config.trigRefuse s.draws) := by
  simp [refuses, busy, h]

/-- A busy sequencer takes no draw (R120). -/
theorem countRefusalDraw_of_busy (h : s.seq.phase ≠ .off) : countRefusalDraw s = s := by
  simp [countRefusalDraw, drawsRefusal, busy, h]

/-- An idle sequencer that may refuse takes one draw (R120). -/
theorem countRefusalDraw_of_off (h : s.seq.phase = .off) :
    countRefusalDraw s = { s with draws := if s.cfg.trigMayRefuse then s.draws + 1 else s.draws } := by
  simp [countRefusalDraw, drawsRefusal, busy, h]

section
variable (hf : s.fault = false) (ho : s.owner = .encoding)
include hf ho

theorem exec_trig_of_not_refuses (hr : refuses s = false) :
    exec .trig s = .next (acceptTrigger (countRefusalDraw s)) := by
  simp [exec, execTrig, trigEffect, hf, ho, hr]

theorem exec_trig_of_refuses (hr : refuses s = true) :
    exec .trig s = .next (rejectTrigger (countRefusalDraw s)) := by
  simp [exec, execTrig, trigEffect, hf, ho, hr]

/-- The pass begins with the parameters, the buffer and the trace that TRIG finds (R121). -/
theorem exists_acceptTrigger_of_exec_trig {t : State} (hr : refuses s = false) (h : exec .trig s = .next t) :
    ∃ u, t = acceptTrigger u ∧ u.cfg = s.cfg ∧ u.buf = s.buf ∧ u.trace = s.trace := by
  rw [exec_trig_of_not_refuses hf ho hr] at h
  injection h with h
  exact ⟨countRefusalDraw s, h.symm, rfl, rfl, rfl⟩

end

end

/-! ### What a step does to a running pass (R123) -/

/-- Only slots that become dirty tell the second sequencer state from the first (R123, R128). -/
def MarksOnly (q q' : Sequencer) : Prop := q' = { q with dirty := q'.dirty } ∧ ∀ i ∈ q.dirty, i ∈ q'.dirty

theorem MarksOnly.refl (q : Sequencer) : MarksOnly q q := ⟨rfl, fun _ h => h⟩

/-- No command stops a running pass: TRIG, which alone writes the sequencer, is refused, and PUSH only marks (R122, R123). -/
theorem CommandEffect.marksOnly {u t : State} {i : Instr} (h : CommandEffect u i t) (hp : u.seq.phase ≠ .off) :
    MarksOnly u.seq t.seq := by
  cases h
  case push r g b _ _ =>
    obtain ⟨-, -, hdirty⟩ := encodeColour_spec r g b u
    exact ⟨encodeColour_seq r g b u, fun i hi => (hdirty i).mpr (.inl hi)⟩
  case accept hr => exact absurd (seq_off_of_not_refuses hr) hp
  all_goals exact .refl _

theorem HostEffect.marksOnly {op : HostOp} {u t : State} (h : HostEffect op u t) (hp : u.seq.phase ≠ .off) :
    MarksOnly u.seq t.seq := by
  cases h
  case stored => exact ⟨rfl, fun j hj => (mem_storeSlot_dirty ..).mpr (.inl hj)⟩
  case command ht => exact ht.marksOnly hp
  case returned hu _ => obtain rfl | ⟨r, rfl⟩ := hu <;> exact .refl _
  all_goals exact .refl _

/-- Power-on reset comes next only while the sequencer is off (R168, R200). -/
theorem seq_off_of_nextEvent_powerOn {s : State} {rest : List Event}
    (h : nextEvent s s.agenda = some (.powerOn, rest)) : s.seq.phase = .off := by
  simpa [enabled, busy] using nextEvent_enabled h

/-! ### The level of a tick (R124, R125) -/

theorem canonical_iff {w : Code} : canonical w = true ↔ w.getLsbD 15 = true ∧ (w.extractLsb' 0 15).toNat ≤ 20 := by
  simp [canonical, dutyOf, periodTicks_eq]

theorem waveLevel_of_canonical {w : Code} (h : canonical w = true) (d k : Nat) : waveLevel d w k = pulseLevel w k :=
  if_pos h

theorem tickSeq_line_of_lat {s : State} (h : s.seq.phase = .lat) : (tickSeq s).line = .low := by
  simp only [tickSeq, h, tickLat]
  split
  · rw [latchSlot_line]; rfl
  · rfl

/-- Moving on in BITS leaves the level that the tick has put on the line. -/
theorem advanceBit_line (s : State) : (advanceBit s).line = s.line := by
  unfold advanceBit
  split
  · split
    · rfl
    · rw [latchSlot_line]; rfl
  · rfl

theorem tickSeq_line_of_bits {s : State} (h : s.seq.phase = .bits) :
    (tickSeq s).line = waveLevel s.draws s.seq.word s.seq.tick := by
  simp only [tickSeq, h, tickBits, advanceBit_line, emitBit_line]

theorem tickSeq_line_of_gap {s : State} (h : s.seq.phase = .gap) : (tickSeq s).line = .low := by
  simp only [tickSeq, h, tickGap]
  split <;> rfl

/-! ### The ticks that latch (R124, R128) -/

/-- The word that the DMA latches: the slot's, or a free value if the slot is dirty (R128). -/
theorem latchSlot_seq (i : Nat) (s : State) :
    (latchSlot i s).seq = { s.seq with
      word := if i ∈ s.seq.dirty then Config.latchValue s.draws else readSlot s.buf i } := by
  unfold latchSlot
  split <;> rfl

/-- The last tick of LAT latches slot 0. -/
theorem tickSeq_lat_last {s : State} (h : s.seq.phase = .lat) (hc : s.seq.cnt = 1) :
    (tickSeq s).seq = { s.seq with
      phase := .bits, slot := 0, tick := 0, cnt := 0
      word := if 0 ∈ s.seq.dirty then Config.latchValue s.draws else readSlot s.buf 0 } := by
  simp only [tickSeq, h, tickLat, hc, Nat.sub_self, if_true]
  exact latchSlot_seq ..

/-- The last tick of a slot with a further slot latches that one, after the draw of the level. -/
theorem tickSeq_bits_next {s : State} (h : s.seq.phase = .bits) (ht : s.seq.tick + 1 = periodTicks)
    (hslot : s.seq.slot + 1 ≠ capacity s.cfg) :
    (tickSeq s).seq = { s.seq with
      slot := s.seq.slot + 1, tick := 0
      word :=
        if s.seq.slot + 1 ∈ s.seq.dirty then Config.latchValue (if canonical s.seq.word then s.draws else s.draws + 1)
        else readSlot s.buf (s.seq.slot + 1) } := by
  simp only [tickSeq, h, tickBits, advanceBit, emitBit_seq, emitBit_cfg, ht, hslot, if_true, if_false]
  exact latchSlot_seq ..

theorem unlatched_iff (q : Sequencer) (i : Nat) :
    unlatched q i = true ↔ q.phase = .lat ∨ (q.phase = .bits ∧ q.slot < i) := by
  unfold unlatched
  split <;> simp [*]

/-! ### Where a pass stands (R127) -/

/-- In LAT with `n` ticks left, nothing dirty. -/
structure InLat (s : State) (n : Nat) : Prop where
  phase_eq : s.seq.phase = .lat
  cnt_eq : s.seq.cnt = n
  clean : s.seq.dirty = []

/-- In BITS at tick `j` of slot `i`, whose word is the buffer's, nothing dirty. -/
structure InSlot (s : State) (i j : Nat) : Prop where
  phase_eq : s.seq.phase = .bits
  slot_eq : s.seq.slot = i
  tick_eq : s.seq.tick = j
  word_eq : s.seq.word = readSlot s.buf i
  clean : s.seq.dirty = []

/-- In GAP with `n` ticks left. -/
structure InGap (s : State) (n : Nat) : Prop where
  phase_eq : s.seq.phase = .gap
  cnt_eq : s.seq.cnt = n

section
variable {s : State} {n i j k : Nat}

theorem InLat.tick (h : InLat s (n + 1)) (hn : 0 < n) : InLat (tick s) n := by
  obtain ⟨hp, hc, hd⟩ := h
  obtain ⟨-, hcount⟩ := tickSeq_lat hp
  have hq := hcount (by omega)
  constructor <;> simp [hq, hp, hc, hd]

theorem InLat.tick_last (h : InLat s 1) : InSlot (Machine.tick s) 0 0 := by
  have hq := tickSeq_lat_last h.phase_eq h.cnt_eq
  constructor <;> simp [hq, h.clean]

theorem InSlot.tick (h : InSlot s i j) (hj : j + 1 < periodTicks) : InSlot (tick s) i (j + 1) := by
  obtain ⟨hp, hs, ht, hw, hd⟩ := h
  obtain ⟨hwithin, -⟩ := tickSeq_bits hp
  have hq := hwithin (by omega)
  constructor <;> simp [hq, hp, hs, ht, hw, hd]

theorem InSlot.tick_next (h : InSlot s i j) (hj : j + 1 = periodTicks) (hi : i + 1 < capacity s.cfg) :
    InSlot (Machine.tick s) (i + 1) 0 := by
  obtain ⟨hp, hs, ht, -, hd⟩ := h
  have hq := tickSeq_bits_next hp (ht ▸ hj) (hs ▸ hi.ne)
  constructor <;> simp [hq, hp, hs, hd]

theorem InSlot.tick_last (h : InSlot s i j) (hj : j + 1 = periodTicks) (hi : i + 1 = capacity s.cfg) :
    InGap (Machine.tick s) resetTicks := by
  obtain ⟨hp, hs, ht, -, -⟩ := h
  obtain ⟨-, hend, -⟩ := tickSeq_bits hp
  have hq := hend (ht ▸ hj) (hs ▸ hi)
  constructor <;> simp [hq]

theorem InGap.tick (h : InGap s (n + 1)) (hn : 0 < n) : InGap (tick s) n := by
  obtain ⟨hp, hc⟩ := h
  obtain ⟨-, hcount⟩ := tickSeq_gap hp
  have hq := hcount (by omega)
  constructor <;> simp [hq, hp, hc]

theorem InGap.tick_last (h : InGap s 1) : (Machine.tick s).seq.phase = .off := by
  obtain ⟨hlast, -⟩ := tickSeq_gap h.phase_eq
  have hq := hlast (by simp [h.cnt_eq])
  simp [hq]

/-- What every tick but the last counts down, `k` ticks count down by `k`. -/
theorem ticks_countdown {P : State → Nat → Prop} (hstep : ∀ s n, P s (n + 1) → 0 < n → P (Machine.tick s) n)
    (h : P s n) (hk : k < n) : P (ticks k s) (n - k) := by
  induction k generalizing s n with
  | zero => exact h
  | succ k ih =>
    obtain ⟨m, rfl⟩ : ∃ m, n = m + 1 := ⟨n - 1, by omega⟩
    rw [Nat.add_sub_add_right]
    exact ih (hstep s m h (by omega)) (by omega)

theorem InLat.ticks (h : InLat s n) (hk : k < n) : InLat (ticks k s) (n - k) :=
  ticks_countdown (fun _ _ => InLat.tick) h hk

/-- LAT ends at slot 0 (R124, R127). -/
theorem InLat.inSlot (h : InLat s n) (hn : 0 < n) : InSlot (Machine.ticks n s) 0 0 := by
  obtain ⟨k, rfl⟩ : ∃ k, n = k + 1 := ⟨n - 1, by omega⟩
  have hprev := h.ticks k.lt_succ_self
  rw [Nat.add_sub_cancel_left] at hprev
  rw [ticks_succ]
  exact hprev.tick_last

/-- The slots follow one another, each for its period (R124, R127). -/
theorem InSlot.ticks (h : InSlot s 0 0) (hk : k < 20 * capacity s.cfg) : InSlot (ticks k s) (k / 20) (k % 20) := by
  induction k with
  | zero => exact h
  | succ k ih =>
    have hprev := ih (by omega)
    rw [ticks_succ]
    by_cases hj : k % 20 + 1 = 20
    · have hi : k / 20 + 1 < capacity (Machine.ticks k s).cfg := by rw [ticks_cfg]; omega
      have hnext := hprev.tick_next (hj.trans periodTicks_eq.symm) hi
      convert hnext using 1 <;> omega
    · have hwithin := hprev.tick (by rw [periodTicks_eq]; omega)
      convert hwithin using 1 <;> omega

/-- The slots end in the gap (R124, R127). -/
theorem InSlot.inGap (h : InSlot s 0 0) (hcap : 0 < capacity s.cfg) :
    InGap (Machine.ticks (20 * capacity s.cfg) s) 4320 := by
  obtain ⟨k, hk⟩ : ∃ k, 20 * capacity s.cfg = k + 1 := ⟨20 * capacity s.cfg - 1, by omega⟩
  have hlast := h.ticks (k := k) (by omega)
  rw [hk, ticks_succ, ← resetTicks_eq]
  exact hlast.tick_last (by rw [periodTicks_eq]; omega) (by rw [ticks_cfg]; omega)

theorem InGap.ticks (h : InGap s n) (hk : k < n) : InGap (ticks k s) (n - k) :=
  ticks_countdown (fun _ _ => InGap.tick) h hk

theorem ticks_off (h : s.seq.phase = .off) (k : Nat) : (ticks k s).seq.phase = .off := by
  induction k with
  | zero => exact h
  | succ k ih => rw [ticks_succ, tick_seq, tickSeq_off ih, ih]

/-- The gap ends the pass, and the sequencer stays off (R124, R127). -/
theorem InGap.off (h : InGap s n) (hn : 0 < n) (hk : n ≤ k) : (Machine.ticks k s).seq.phase = .off := by
  obtain ⟨m, rfl⟩ : ∃ m, n = m + 1 := ⟨n - 1, by omega⟩
  obtain ⟨d, rfl⟩ := Nat.exists_eq_add_of_le hk
  have hprev := h.ticks m.lt_succ_self
  rw [Nat.add_sub_cancel_left] at hprev
  rw [ticks_add, ticks_succ]
  exact ticks_off hprev.tick_last d

end

/-! ### A pass from its trigger on (R121, R127) -/

section
variable {s : State} {k : Nat}

/-- An accepted TRIG with a start latency begins in LAT (R121). -/
theorem inLat_acceptTrigger (hl : s.cfg.startLatency ≠ 0) : InLat (acceptTrigger s) s.cfg.startLatency := by
  constructor <;> simp [hl]

/-- An accepted TRIG without a start latency begins at slot 0 (R121). -/
theorem inSlot_acceptTrigger (hl : s.cfg.startLatency = 0) : InSlot (acceptTrigger s) 0 0 := by
  constructor <;> simp [hl]

theorem inLat_ticks_acceptTrigger (hk : k < s.cfg.startLatency) :
    InLat (ticks k (acceptTrigger s)) (s.cfg.startLatency - k) :=
  (inLat_acceptTrigger (by omega)).ticks hk

/-- Slot 0 begins λ ticks after the trigger (R127). -/
theorem inSlot_ticks_startLatency (s : State) : InSlot (ticks s.cfg.startLatency (acceptTrigger s)) 0 0 := by
  by_cases hl : s.cfg.startLatency = 0
  · rw [hl]
    exact inSlot_acceptTrigger hl
  · exact (inLat_acceptTrigger hl).inSlot (Nat.pos_of_ne_zero hl)

theorem inSlot_ticks_acceptTrigger (hk : k < 20 * capacity s.cfg) :
    InSlot (ticks (s.cfg.startLatency + k) (acceptTrigger s)) (k / 20) (k % 20) := by
  rw [ticks_add]
  exact (inSlot_ticks_startLatency s).ticks (by simpa using hk)

/-- The gap begins λ and 20 ticks for each slot after the trigger (R127). -/
theorem inGap_ticks_acceptTrigger (hcap : 0 < capacity s.cfg) :
    InGap (ticks (s.cfg.startLatency + 20 * capacity s.cfg) (acceptTrigger s)) 4320 := by
  have hgap := (inSlot_ticks_startLatency s).inGap (by simpa using hcap)
  rw [ticks_add]
  simpa using hgap

end

/-! ### The levels of a run of ticks (R125, R129) -/

/-- The levels of the next `k` ticks, first tick first. -/
def wave (k : Nat) (s : State) : List Level := (List.range k).map fun j => (tickSeq (ticks j s)).line

theorem wave_add (a b : Nat) (s : State) : wave (a + b) s = wave a s ++ wave b (ticks a s) := by
  simp [wave, List.range_add, ticks_add, Function.comp_def]

/-- The trace gains the levels of the ticks (R37). -/
theorem ticks_trace (k : Nat) (s : State) : (ticks k s).trace = (wave k s).reverse ++ s.trace := by
  induction k with
  | zero => rfl
  | succ k ih =>
    rw [ticks_succ, tick_trace, tickSeq_trace, ih]
    simp [wave, List.range_succ]

theorem wave_eq_replicate {k : Nat} {s : State} {l : Level} (h : ∀ j, j < k → (tickSeq (ticks j s)).line = l) :
    wave k s = List.replicate k l := by
  rw [List.eq_replicate_iff]
  simpa [wave] using h

/-- A canonical word's period, tick by tick (R125, R129). -/
theorem slotWave_eq_map_pulseLevel {w : Code} (h : canonical w = true) :
    slotWave w = (List.range 20).map (pulseLevel w) := by
  obtain ⟨-, hduty⟩ := canonical_iff.mp h
  rw [← dutyOf] at hduty
  apply List.ext_getElem
  · simp [slotWave, periodTicks_eq, hduty]
  · intro k _ _
    simp [slotWave, List.getElem_append, pulseLevel]

/-- The last slot's period comes last. -/
theorem slotsWave_succ (m : FrameBuffer) (i n : Nat) :
    slotsWave m i (n + 1) = slotsWave m i n ++ slotWave (readSlot m (i + n)) := by
  induction n generalizing i with
  | zero => simp [slotsWave]
  | succ n ih =>
    rw [slotsWave, ih, slotsWave, List.append_assoc, Nat.add_right_comm, Nat.add_assoc]

/-- While a slot is sent, the period of its canonical word is on the line (R125). -/
theorem InSlot.wave_slot {s : State} {i : Nat} (h : InSlot s 0 0) (hi : i < capacity s.cfg)
    (hcanon : canonical (readSlot s.buf i) = true) : wave 20 (Machine.ticks (20 * i) s) = slotWave (readSlot s.buf i) := by
  rw [slotWave_eq_map_pulseLevel hcanon]
  refine List.map_congr_left fun j hj => ?_
  have hj : j < 20 := List.mem_range.mp hj
  obtain ⟨hp, -, ht, hw, -⟩ := h.ticks (k := 20 * i + j) (by omega)
  rw [show (20 * i + j) / 20 = i by omega, ticks_buf] at hw
  rw [← ticks_add, tickSeq_line_of_bits hp, hw, ht, waveLevel_of_canonical hcanon]
  congr 1
  omega

/-- The slots' periods, one after another (R129). -/
theorem InSlot.wave_slots {s : State} (h : InSlot s 0 0) {n : Nat} (hn : n ≤ capacity s.cfg)
    (hcanon : ∀ i, i < capacity s.cfg → canonical (readSlot s.buf i) = true) :
    wave (20 * n) s = slotsWave s.buf 0 n := by
  induction n with
  | zero => rfl
  | succ n ih =>
    rw [Nat.mul_succ, wave_add, ih (by omega), h.wave_slot hn (hcanon n hn), slotsWave_succ, Nat.zero_add]

theorem InGap.wave_eq {s : State} {n : Nat} (h : InGap s n) : wave n s = List.replicate n .low :=
  wave_eq_replicate fun _ hj => tickSeq_line_of_gap (h.ticks hj).phase_eq

theorem passTicks_eq (p : Config.Params) : passTicks p = p.startLatency + 20 * capacity p + 4320 := by
  rw [passTicks, periodTicks_eq, resetTicks_eq, Nat.mul_comm]

/-- The levels of a pass: λ LOW ticks, the slots' periods, and the gap (R129). -/
theorem wave_passTicks_acceptTrigger {s : State} (hcap : 0 < capacity s.cfg)
    (hcanon : ∀ i, i < capacity s.cfg → canonical (readSlot s.buf i) = true) :
    wave (passTicks s.cfg) (acceptTrigger s) = passWave s.cfg s.buf := by
  have hlat : wave s.cfg.startLatency (acceptTrigger s) = List.replicate s.cfg.startLatency .low :=
    wave_eq_replicate fun _ hj => tickSeq_line_of_lat (inLat_ticks_acceptTrigger hj).phase_eq
  have hslots : wave (20 * capacity s.cfg) (ticks s.cfg.startLatency (acceptTrigger s))
      = slotsWave s.buf 0 (capacity s.cfg) := by
    simpa using (inSlot_ticks_startLatency s).wave_slots (n := capacity s.cfg) (by simp) (by simpa using hcanon)
  rw [passTicks_eq, wave_add, wave_add, hlat, hslots, (inGap_ticks_acceptTrigger hcap).wave_eq, passWave, resetTicks_eq]

end Sys2Proof.Machine
end

section
/-! PROOFS. The statements of the sequencer (42_sequence_transmitter.md). -/

namespace Sys2Proof.Safety

open Sys2Proof Sys2Proof.Machine

/-- Settles O34: a tick is the sequencer's own, a host step only marks slots, and a power-on waits for the pass to end. -/
theorem noStepStopsAPass : Obligations.NoStepStopsAPass := by
  unfold Obligations.NoStepStopsAPass
  intro s t hs hp
  obtain ⟨rest, rfl⟩ | ⟨task, op, rest, -, he⟩ | ⟨rest, hn, -⟩ := step_cases hs
  · exact .inl (by rw [tick_seq, tickSeq_setAgenda, setAgenda_seq])
  · exact .inr (he.marksOnly hp)
  · exact absurd (seq_off_of_nextEvent_powerOn hn) hp

/-- Settles O38: slot i takes the 20 ticks from λ + 20·i on, and N LEDs have 24·N slots. -/
theorem timelineOfAPass : Obligations.TimelineOfAPass := by
  unfold Obligations.TimelineOfAPass
  intro s t hf ho hr hN hexec k
  obtain ⟨u, rfl, hcfg, -, -⟩ := exists_acceptTrigger_of_exec_trig hf ho hr hexec
  rw [← hcfg] at hN ⊢
  have hcap : 20 * capacity u.cfg = 480 * u.cfg.ledCount := by unfold capacity; omega
  have hgap : InGap (ticks (u.cfg.startLatency + 480 * u.cfg.ledCount) (acceptTrigger u)) 4320 :=
    hcap ▸ inGap_ticks_acceptTrigger (by omega)
  refine ⟨fun hk => ?_, fun i j hi hj hk => ?_, fun hlow hhigh => ?_, fun hk => ?_⟩
  · exact (inLat_ticks_acceptTrigger hk).phase_eq
  · have hslot := inSlot_ticks_acceptTrigger (s := u) (k := 20 * i + j) (by omega)
    rw [hk, Nat.add_assoc]
    exact ⟨hslot.phase_eq, hslot.slot_eq.trans (by omega), hslot.tick_eq.trans (by omega)⟩
  · obtain ⟨m, rfl⟩ := Nat.exists_eq_add_of_le hlow
    rw [ticks_add]
    exact (hgap.ticks (by omega)).phase_eq
  · obtain ⟨m, rfl⟩ := Nat.exists_eq_add_of_le (Nat.le_of_add_right_le hk)
    rw [ticks_add]
    exact hgap.off (by decide) (by omega)

/-- Settles O39: the trace gains the levels of the pass; its gap ends it, and no tick writes the buffer. -/
theorem frameWaveform : Obligations.FrameWaveform := by
  unfold Obligations.FrameWaveform
  intro s t hf ho hr hN hcanon hexec
  obtain ⟨u, rfl, hcfg, hbuf, htrace⟩ := exists_acceptTrigger_of_exec_trig hf ho hr hexec
  rw [← hcfg, ← hbuf] at hcanon
  rw [← hcfg] at hN
  rw [← hcfg, ← hbuf, ← htrace]
  have hcap : 0 < capacity u.cfg := by unfold capacity; omega
  refine ⟨?_, ?_, ?_⟩
  · rw [ticks_trace, wave_passTicks_acceptTrigger hcap hcanon, acceptTrigger_trace]
  · rw [passTicks_eq, ticks_add]
    exact (inGap_ticks_acceptTrigger hcap).off (by decide) (le_refl 4320)
  · rw [ticks_buf, acceptTrigger_buf]

/-- Settles O22: TRIG is `acceptTrigger` after its draw, which an idle sequencer takes if it may refuse. -/
theorem trigStartsThePass : Obligations.TrigStartsThePass := by
  unfold Obligations.TrigStartsThePass
  intro s hf ho hr
  rw [exec_trig_of_not_refuses hf ho hr, countRefusalDraw_of_off (seq_off_of_not_refuses hr)]
  rfl

/-- Settles O23: a busy sequencer refuses without a draw; an idle one that may refuse goes by its draw. -/
theorem trigIsRejected : Obligations.TrigIsRejected := by
  unfold Obligations.TrigIsRejected
  intro s hf ho
  refine ⟨fun hp => ?_, fun hp hmay => ?_⟩
  · rw [exec_trig_of_refuses hf ho (refuses_of_busy hp), countRefusalDraw_of_busy hp]
    rfl
  · have hrefuses := refuses_of_off hp
    have hcount := countRefusalDraw_of_off hp
    rw [hmay, Bool.true_and] at hrefuses
    rw [hmay, if_pos rfl] at hcount
    cases hdraw : Config.trigRefuse s.draws with
    | true =>
      rw [exec_trig_of_refuses hf ho (hrefuses.trans hdraw), hcount]
      exact ⟨_, rfl, rfl, fun _ => rfl, nofun⟩
    | false =>
      rw [exec_trig_of_not_refuses hf ho (hrefuses.trans hdraw), hcount]
      exact ⟨_, rfl, rfl, nofun, fun _ => ⟨rfl, rfl⟩⟩

/-- Settles O35: the timer's half of a tick does nothing unless the timer counts in WAITING. -/
theorem sequencerWritesOnlyItsOwn : Obligations.SequencerWritesOnlyItsOwn := by
  unfold Obligations.SequencerWritesOnlyItsOwn
  refine fun s => ⟨tickSeq_frame s, fun hidle => ?_⟩
  have htick : tick s = tickSeq s := if_neg (by simpa using hidle)
  rw [htick]
  exact tickSeq_frame s

/-- Settles O36: the duty decides the level of a canonical word, those of the two codes being 6 and 13. -/
theorem levelWithinAPeriod : Obligations.LevelWithinAPeriod := by
  unfold Obligations.LevelWithinAPeriod
  intro d w k
  have hzero : canonical 0x8006#16 = true ∧ dutyOf 0x8006#16 = 6 := by decide
  have hone : canonical 0x800D#16 = true ∧ dutyOf 0x800D#16 = 13 := by decide
  refine ⟨fun hw => waveLevel_of_canonical (canonical_iff.mpr hw) d k, fun hw => if_neg (mt canonical_iff.mp hw), ?_, ?_,
    fun s hp => ?_⟩
  · rw [waveLevel_of_canonical hzero.1, pulseLevel, hzero.2]
  · rw [waveLevel_of_canonical hone.1, pulseLevel, hone.2]
  · have hline := tickSeq_line_of_bits hp
    exact ⟨hline, (tick_line s).trans hline, by rw [tick_trace, tickSeq_trace, hline]⟩

/-- Settles O40: the latch, the marks and the ends of the dirty set, and then the ticks of LAT and BITS. -/
theorem dirtySlotsLatchFreeValues : Obligations.DirtySlotsLatchFreeValues := by
  unfold Obligations.DirtySlotsLatchFreeValues
  intro s i w
  refine ⟨fun hi => ?_, fun hi => ?_, unlatched_iff s.seq i, fun j => mem_storeSlot_dirty i j w s, ?_, fun hp hc => ?_,
    tickSeq_lat_last, fun hp ht => ?_, fun hp ht => ?_⟩
  · rw [latchSlot_seq]
    exact if_pos hi
  · rw [latchSlot_seq]
    exact if_neg hi
  · rw [acceptTrigger_seq]
    split <;> rfl
  · obtain ⟨hlast, -⟩ := tickSeq_gap hp
    rw [hlast (by omega)]
  · exact tickSeq_bits_next hp (by rw [ht, periodTicks_eq])
  · obtain ⟨hwithin, -⟩ := tickSeq_bits hp
    exact hwithin (by rw [periodTicks_eq]; omega)

end Sys2Proof.Safety
end

section
/-! PROOFS. The completion waiter: the wait commands and CANCEL (R140, R141, R143), which step comes next while a task is
suspended (R141, R142), and the timer's half of a tick in WAITING (R144 to R146). -/

namespace Sys2Proof.Machine

/-! ### The waits and CANCEL (R140, R141, R143) -/

section
variable {s : State} (hf : s.fault = false)
include hf

theorem exec_waitb_of_transmitting (ho : s.owner = .transmitting) :
    exec .waitb s = .next (blockHost (startWait .blocking s)) := by
  simp [exec, execWaitb, waitbEffect, hf, ho]

theorem exec_waits_of_transmitting (ho : s.owner = .transmitting) :
    exec .waits s = .next (suspendTask (startWait .suspending s)) := by
  simp [exec, execWaits, waitsEffect, hf, ho]

theorem exec_cancel_of_suspending (ho : s.owner = .waiting) (hw : s.wmode = .suspending) :
    exec .cancel s = .next (cancelWait s) := by
  simp [exec, execCancel, cancelEffect, hf, ho, hw]

end

/-- A dropped task has no step left (R141, R143, log 3). -/
theorem host_notMem_dropTask (t : Nat) (op : HostOp) (agenda : List Event) :
    .host t op ∉ dropTask (some t) agenda := by
  simp [dropTask, Event.ofTask]

/-! ### Which step comes next while a task is suspended (R141, R142) -/

/-- R141: a host step comes next only for a task that no WAITS suspends. -/
theorem suspended_ne_of_nextEvent_host {s : State} {task : Nat} {op : HostOp} {rest : List Event}
    (h : nextEvent s s.agenda = some (.host task op, rest)) : s.host.suspended ≠ some task := by
  have he := nextEvent_enabled h
  simp only [enabled, Bool.and_eq_true, Bool.not_eq_true', beq_eq_false_iff_ne] at he
  exact he.2

theorem enabled_host {s : State} {task : Nat} (op : HostOp) (hb : s.host.blocked = false)
    (hs : s.host.suspended ≠ some task) : enabled s (.host task op) = true := by
  simp [enabled, hb, hs]

theorem not_enabled_host_of_suspended {s : State} {task : Nat} (op : HostOp) (hs : s.host.suspended = some task) :
    enabled s (.host task op) = false := by
  simp [enabled, hs]

/-- The converse of `nextEvent_split`: events that may not step are passed, and keep their places (log 2). -/
theorem nextEvent_append {s : State} {pre : List Event} {e : Event} (post : List Event)
    (hpre : ∀ x ∈ pre, enabled s x = false) (he : enabled s e = true) :
    nextEvent s (pre ++ e :: post) = some (e, pre ++ post) := by
  induction pre with
  | nil => simp [nextEvent, he]
  | cons x pre ih =>
    have hx := hpre x List.mem_cons_self
    have hrest := ih fun y hy => hpre y (List.mem_cons_of_mem x hy)
    simp [nextEvent, hx, hrest]

/-! ### The timer's half of a tick in WAITING (R145, R146) -/

section
variable {s : State}

/-- A timer that has not failed fails or counts in WAITING, by its draw (R145). -/
theorem tickTimer_of_waiting (ho : s.owner = .waiting) (hf : s.timer.failed = false) :
    tickTimer s = if s.cfg.timerMayFail = true ∧ Config.timerFail s.draws = true then failTimer (countTimerDraw s)
      else countDown (countTimerDraw s) := by
  simp [tickTimer, ho, hf]

/-- A timer that may not fail takes no draw, and counts down (R145). -/
theorem tickTimer_of_reliable (ho : s.owner = .waiting) (hf : s.timer.failed = false)
    (hmay : s.cfg.timerMayFail = false) : tickTimer s = countDown s := by
  have hdraw : countTimerDraw s = s := by simp [countTimerDraw, hmay]
  rw [tickTimer_of_waiting ho hf, hdraw]
  exact if_neg (by simp [hmay])

/-- A failed timer does nothing (R146). -/
theorem tick_of_failed (hf : s.timer.failed = true) : tick s = tickSeq s :=
  if_neg (by simp [hf])

/-- After the timer's failure STATE, the timer and the host stay for any number of ticks (R146). -/
theorem ticks_of_failed (hf : s.timer.failed = true) (k : Nat) :
    (ticks k s).owner = s.owner ∧ (ticks k s).timer = s.timer ∧ (ticks k s).host = s.host := by
  induction k with
  | zero => exact ⟨rfl, rfl, rfl⟩
  | succ k ih =>
    obtain ⟨howner, htimer, hhost⟩ := ih
    rw [ticks_succ, tick_of_failed (htimer ▸ hf)]
    simp [howner, htimer, hhost]

end

/-! ### How long a wait lasts (R144) -/

/-- In WAITING with `n` ticks left, on a timer that has not failed and may not. -/
structure InWait (s : State) (n : Nat) : Prop where
  waiting : s.owner = .waiting
  remain_eq : s.timer.remain = n
  not_failed : s.timer.failed = false
  reliable : s.cfg.timerMayFail = false

section
variable {s : State} {n : Nat}

/-- Every tick of such a wait counts down (R145). -/
theorem InWait.tick_eq (h : InWait s n) : tick s = countDown (tickSeq s) :=
  tickTimer_of_reliable (by simpa using h.waiting) (by simpa using h.not_failed) (by simpa using h.reliable)

theorem InWait.tick (h : InWait s (n + 1)) (hn : 0 < n) : InWait (tick s) n := by
  rw [h.tick_eq]
  obtain ⟨ho, hr, hf, hmay⟩ := h
  have hn : n ≠ 0 := hn.ne'
  constructor <;> simp [countDown, ho, hr, hf, hmay, hn]

theorem InWait.tick_last (h : InWait s 1) : Machine.tick s = expire (tickSeq s) := by
  rw [h.tick_eq]
  exact if_pos (by simp [h.remain_eq])

theorem InWait.ticks {k : Nat} (h : InWait s n) (hk : k < n) : InWait (ticks k s) (n - k) :=
  ticks_countdown (fun _ _ => InWait.tick) h hk

/-- The wait ends with the timer's expiry (R144, R145). -/
theorem InWait.exists_expire (h : InWait s n) (hn : 0 < n) : ∃ u, Machine.ticks n s = expire u := by
  obtain ⟨k, rfl⟩ : ∃ k, n = k + 1 := ⟨n - 1, by omega⟩
  have hprev := h.ticks k.lt_succ_self
  rw [Nat.add_sub_cancel_left] at hprev
  rw [ticks_succ]
  exact ⟨_, hprev.tick_last⟩

end

/-- Either wait command starts a wait of the completion delay (R140, R141, R144). -/
theorem inWait_of_exec_wait {s t : State} {i : Instr} (hi : i = .waitb ∨ i = .waits) (hf : s.fault = false)
    (ho : s.owner = .transmitting) (hmay : s.cfg.timerMayFail = false) (hfailed : s.timer.failed = false)
    (h : exec i s = .next t) : InWait t (delayTicks s.cfg) := by
  obtain rfl | rfl := hi
  · rw [exec_waitb_of_transmitting hf ho] at h
    injection h with h
    exact h ▸ ⟨rfl, rfl, hfailed, hmay⟩
  · rw [exec_waits_of_transmitting hf ho] at h
    injection h with h
    exact h ▸ ⟨rfl, rfl, hfailed, hmay⟩

end Sys2Proof.Machine
end

section
/-! PROOFS. The statements of the completion waiter (43_completion_waiter.md). -/

namespace Sys2Proof.Safety

open Sys2Proof Sys2Proof.Machine

/-- Settles O15: the next event may step, and a suspended task's may not. -/
theorem suspendedTaskHasNoStep : Obligations.SuspendedTaskHasNoStep := by
  unfold Obligations.SuspendedTaskHasNoStep
  exact fun _ _ _ _ hs hn => suspended_ne_of_nextEvent_host hn hs

/-- Settles O16: the steps of the suspended task may not step and are passed, and the other task's step may. -/
theorem otherTasksMayStep : Obligations.OtherTasksMayStep := by
  unfold Obligations.OtherTasksMayStep
  intro s task op waiting rest hb hs hwaiting hagenda
  have hpassed : ∀ e ∈ waiting, enabled s e = false := fun e he => by
    obtain ⟨t, o, rfl, ht⟩ := hwaiting e he
    exact not_enabled_host_of_suspended o ht
  rw [hagenda]
  exact nextEvent_append rest hpassed (enabled_host op hb hs)

/-- Settles O24: WAITB loads the completion delay, which is 480 ticks for each LED and the gap. -/
theorem waitbBlocksTheHost : Obligations.WaitbBlocksTheHost := by
  unfold Obligations.WaitbBlocksTheHost
  intro s hf ho
  rw [exec_waitb_of_transmitting hf ho, ← delayTicks_eq]
  rfl

/-- Settles O25: WAITS loads the same delay and suspends the task whose step it is. -/
theorem waitsSuspendsTheTask : Obligations.WaitsSuspendsTheTask := by
  unfold Obligations.WaitsSuspendsTheTask
  intro s hf ho
  rw [exec_waits_of_transmitting hf ho, ← delayTicks_eq]
  rfl

/-- Settles O26: CANCEL is `cancelWait`, which drops the suspended task from the agenda. -/
theorem cancelEndsSuspendingWait : Obligations.CancelEndsSuspendingWait := by
  unfold Obligations.CancelEndsSuspendingWait
  intro s task hf ho hw hs
  rw [exec_cancel_of_suspending hf ho hw, cancelWait, hs]
  exact ⟨dropTask (some task) s.agenda, rfl, fun op => host_notMem_dropTask task op s.agenda, rfl⟩

/-- Settles O42: the timer counts the delay down, and its expiry ends the wait. -/
theorem waitLastsExactlyTheDelay : Obligations.WaitLastsExactlyTheDelay := by
  unfold Obligations.WaitLastsExactlyTheDelay
  intro s t i hf ho hi hmay hfailed hexec
  have hwait := inWait_of_exec_wait hi hf ho hmay hfailed hexec
  obtain ⟨u, hu⟩ := hwait.exists_expire (delayTicks_pos s.cfg)
  rw [← delayTicks_eq, hu]
  exact ⟨fun k hk => (hwait.ticks hk).waiting, rfl, rfl, rfl, rfl⟩

/-- Settles O44: the timer's half fails, expires or counts, after a sequencer's half that writes only its own fields. -/
theorem timerFailureHangsTheWait : Obligations.TimerFailureHangsTheWait := by
  unfold Obligations.TimerFailureHangsTheWait
  refine fun s ho => ⟨fun hf => ?_, fun hf k => ?_⟩
  · obtain ⟨q, l, n, hseq⟩ := tickSeq_frame s
    refine ⟨(countTimerDraw (tickSeq s)).draws, ?_⟩
    rw [tick, hseq]
    exact tickTimer_of_waiting ho hf
  · obtain ⟨howner, htimer, hhost⟩ := ticks_of_failed hf k
    exact ⟨howner.trans ho, htimer, hhost⟩

end Sys2Proof.Safety
end

section
/-! PROOFS. The ownership guard: a command in a STATE that has no move for it (R150), what a step does to STATE (R151), and the
accesses to slots and registers (R153, R154, R161 to R163). -/

namespace Sys2Proof.Machine

open Sys2Proof.Safety

/-! ### Commands that are not legal in STATE (R150) -/

/-- With FAULT = 0, a command without a move in STATE raises PROTOCOL_VIOLATION (R150). -/
theorem exec_of_not_legal {i : Instr} {s : State} (hf : s.fault = false) (hl : legal i s = false) :
    exec i s = .next (raiseFault .protocolViolation s) := by
  cases i with
  | init =>
    have ho : s.owner ≠ .uninit := of_decide_eq_false hl
    simp [exec, execInit, initEffect, hf, ho]
  | beginFrame =>
    have ho : s.owner ≠ .idle := of_decide_eq_false hl
    simp [exec, execBegin, beginEffect, hf, ho]
  | push r g b =>
    have ho : s.owner ≠ .encoding := of_decide_eq_false hl
    simp [exec_push, pushEffect, hf, ho]
  | trig =>
    have ho : s.owner ≠ .encoding := of_decide_eq_false hl
    simp [exec, execTrig, trigEffect, hf, ho]
  | waitb =>
    have ho : s.owner ≠ .transmitting := of_decide_eq_false hl
    simp [exec, execWaitb, waitbEffect, hf, ho]
  | waits =>
    have ho : s.owner ≠ .transmitting := of_decide_eq_false hl
    simp [exec, execWaits, waitsEffect, hf, ho]
  | cancel =>
    have ho : s.owner ≠ .waiting ∨ s.wmode ≠ .suspending := by
      simpa [legal, Decidable.imp_iff_not_or] using hl
    simp [exec, execCancel, cancelEffect, hf, ho]

/-! ### What a step does to STATE (R151) -/

@[simp] theorem ownerEdge_self (o : Owner) : ownerEdge o o = true := by
  cases o <;> decide

/-- A command's effect moves STATE along the cycle (R151). -/
theorem CommandEffect.ownerEdge {u t : State} {i : Instr} (h : CommandEffect u i t) :
    ownerEdge u.owner t.owner = true := by
  cases h
  case push => simp
  case beginFrame ho | waitb ho | waits ho => rw [ho]; rfl
  case init ho _ | accept ho _ | reject ho _ | cancel ho _ => rw [ho]; rfl

/-- Of the host steps only a command moves STATE (R151). -/
theorem HostEffect.ownerEdge {op : HostOp} {u t : State} (h : HostEffect op u t) :
    ownerEdge u.owner t.owner = true := by
  cases h
  case command ht => exact ht.ownerEdge
  case returned hu _ => obtain rfl | ⟨r, rfl⟩ := hu <;> exact ownerEdge_self _
  all_goals exact ownerEdge_self _

/-- A tick moves STATE only where the wait's timer expires (R145, R151). -/
theorem ownerEdge_tick (s : State) : ownerEdge s.owner (tick s).owner = true := by
  rw [tick, ← tickSeq_owner s]
  rcases tickTimer_cases (tickSeq s) with ⟨h, -⟩ | ⟨ho, -, ⟨h, -⟩ | ⟨h, -⟩ | ⟨h, -⟩⟩
  · rw [h, ownerEdge_self]
  · rw [h]; exact ownerEdge_self _
  · rw [h, ho]; rfl
  · rw [h]; exact ownerEdge_self _

/-! ### Slot accesses (R153, R161, R162) -/

section
variable {s : State} {i : Nat}

/-- A 16-bit load at a slot's offset is LD16 of that slot (R161). -/
theorem memRead_offsetOfSlot (hi : i < capacity s.cfg) : memRead (offsetOfSlot i) 2 s = loadSlot i s := by
  have hreg : ¬offsetOfSlot i < 0x100 := by unfold offsetOfSlot; omega
  simp [memRead, accessOk_offsetOfSlot .load hi, hreg]

/-- A 16-bit store at a slot's offset is ST16 of that slot (R162). -/
theorem memWrite_offsetOfSlot (v : BusData) (hi : i < capacity s.cfg) :
    memWrite (offsetOfSlot i) 2 v s = .next (storeBuf i (v.setWidth 16) s) := by
  have hreg : ¬offsetOfSlot i < 0x100 := by unfold offsetOfSlot; omega
  simp [memWrite, accessOk_offsetOfSlot .store hi, hreg]

theorem loadSlot_of_idle (hf : s.fault = false) (ho : s.owner = .idle) :
    loadSlot i s = setReply (.value ((readSlot s.buf i).setWidth 64)) s := by
  simp [loadSlot, hf, ho]

theorem storeBuf_of_idle {w : Code} (hf : s.fault = false) (ho : s.owner = .idle) :
    storeBuf i w s = storeSlot i w s := by
  simp [storeBuf, hf, ho]

theorem loadSlot_of_ne_idle (hf : s.fault = false) (ho : s.owner ≠ .idle) :
    loadSlot i s = raiseFault .ownershipViolation s := by
  simp [loadSlot, hf, ho]

theorem storeBuf_of_ne_idle {w : Code} (hf : s.fault = false) (ho : s.owner ≠ .idle) :
    storeBuf i w s = raiseFault .ownershipViolation s := by
  simp [storeBuf, hf, ho]

end

/-! ### Register loads (R154, R163) -/

/-- A 32-bit load at the offset of a register other than CMD is LD32 of that register, in every state (R154). -/
theorem memRead_register {off : Nat} (s : State) (hoff : 4 ≤ off ∧ off ≤ 0x030 ∧ off % 4 = 0) :
    memRead off 4 s = loadRegister off s := by
  obtain ⟨hlow, hhigh, haligned⟩ := hoff
  have hreg : off < 0x100 := by omega
  have hok : accessOk s.cfg .load off 4 = true := by
    have hblock : off < 0x034 := by omega
    have hcmd : off ≠ 0x000 := by omega
    simp [accessOk, hblock, haligned, hcmd]
  rw [memRead, if_pos hok, if_pos hreg]

/-- CURSOR as the host reads it is zero-extended (R29). -/
theorem cursorWord_eq_setWidth (s : State) : cursorWord s = (BitVec.ofNat 16 s.cursor).setWidth 32 :=
  (BitVec.setWidth_eq_append (by decide)).symm

end Sys2Proof.Machine
end

section
/-! PROOFS. The statements of the ownership guard (44_ownership_guard.md). -/

namespace Sys2Proof.Safety

open Sys2Proof Sys2Proof.Machine

/-- Settles O28: a command that is not legal raises PROTOCOL_VIOLATION, and the first fault sets FAULT, FCODE and the mark
alone. -/
theorem illegalStateRaises : Obligations.IllegalStateRaises := by
  unfold Obligations.IllegalStateRaises
  intro i s hf hl
  rw [exec_of_not_legal hf hl, raiseFault_of_not_fault hf]
  rfl

/-- Settles O29: a tick moves STATE only where a wait expires, and a host step only by a command's own move. -/
theorem ownershipMovesAlongTheCycle : Obligations.OwnershipMovesAlongTheCycle := by
  unfold Obligations.OwnershipMovesAlongTheCycle
  intro s t hp hs
  obtain ⟨rest, rfl⟩ | ⟨task, op, rest, -, he⟩ := step_cases_of_not_powersOn hp hs
  · exact ownerEdge_tick (setAgenda rest s)
  · exact he.ownerEdge

/-- Settles O49: in IDLE the load is a reply alone and the store is `storeSlot`. -/
theorem slotAccessesInIdle : Obligations.SlotAccessesInIdle := by
  unfold Obligations.SlotAccessesInIdle
  intro s i v hf ho hi
  have hload := (memRead_offsetOfSlot hi).trans (loadSlot_of_idle hf ho)
  have hstore := (memWrite_offsetOfSlot v hi).trans (congrArg _ (storeBuf_of_idle hf ho))
  exact ⟨hload, storeSlot i (v.setWidth 16) s, hstore, readSlot_writeSlot_same .., fun _ => readByte_writeSlot_other _ _,
    rfl, fun j => mem_storeSlot_dirty i j _ s, rfl⟩

/-- Settles O47: the offset is that of a register with a legal load, and each register holds the value of the map. -/
theorem registerLoadsReturnTheMap : Obligations.RegisterLoadsReturnTheMap := by
  unfold Obligations.RegisterLoadsReturnTheMap
  intro s off w hmem
  simp only [List.mem_cons, Prod.mk.injEq, List.not_mem_nil, or_false] at hmem
  have hoff : 4 ≤ off ∧ off ≤ 0x030 ∧ off % 4 = 0 := by omega
  have hvalue : readRegister off s = w := by
    obtain ⟨rfl, rfl⟩ | ⟨rfl, rfl⟩ | ⟨rfl, rfl⟩ | ⟨rfl, rfl⟩ | ⟨rfl, rfl⟩ | ⟨rfl, rfl⟩ | ⟨rfl, rfl⟩ | ⟨rfl, rfl⟩
      | ⟨rfl, rfl⟩ | ⟨rfl, rfl⟩ | ⟨rfl, rfl⟩ | ⟨rfl, rfl⟩ := hmem
    exacts [rfl, cursorWord_eq_setWidth s, rfl, rfl, rfl, rfl, rfl, rfl, rfl,
      congrArg (BitVec.ofNat 32) (delayUs_eq s.cfg), rfl, rfl]
  rw [memRead_register s hoff, loadRegister, hvalue]
  rfl

/-- Settles O50: outside IDLE both accesses raise OWNERSHIP_VIOLATION, and the first fault sets FAULT, FCODE and the mark
alone. -/
theorem slotAccessOutsideIdleRaises : Obligations.SlotAccessOutsideIdleRaises := by
  unfold Obligations.SlotAccessOutsideIdleRaises
  intro s i v hf ho hi
  have hraise := raiseFault_of_not_fault (c := .ownershipViolation) hf
  exact ⟨(memRead_offsetOfSlot hi).trans ((loadSlot_of_ne_idle hf ho).trans hraise),
    (memWrite_offsetOfSlot v hi).trans (congrArg _ ((storeBuf_of_ne_idle hf ho).trans hraise))⟩

end Sys2Proof.Safety
end

section
/-! PROOFS. Construction (R107, R160), the access check and what a failing access does (R166), and which accesses reach the
block (R161 to R165). -/

namespace Sys2Proof.Machine

/-! ### INIT and CONFIG_OK (R107, R160) -/

theorem exec_init_of_configOk {s : State} (hf : s.fault = false) (ho : s.owner = .uninit)
    (hc : configOk s.cfg = true) : exec .init s = .next (construct s) := by
  simp [exec, execInit, initEffect, hf, ho, hc]

/-- The clause of CONFIG_OK on the pulse timing holds for the source's inputs (R107). -/
theorem duties_increase_below_period :
    0 < zeroDuty ∧ zeroDuty < oneDuty ∧ oneDuty < periodTicks ∧ periodTicks ≤ 0x7FFF := by
  decide

/-! ### The access check, by the three parts of the window (R166) -/

section
variable {p : Config.Params} {kind : AccessKind} {off n : Nat}

theorem accessOk_register_eq_false_iff (h : off < 0x034) :
    accessOk p kind off n = false ↔
      n ≠ 4 ∨ off % 4 ≠ 0 ∨ (kind = .load ∧ off = 0x000) ∨ (kind = .store ∧ 0x004 ≤ off) := by
  simp only [accessOk, if_pos h, Bool.and_eq_false_iff, decide_eq_false_iff_not]
  cases kind with
  | load => simp only [decide_eq_false_iff_not]; grind
  | store => simp only [decide_eq_false_iff_not]; grind

/-- The offsets between the registers and the buffer are reserved. -/
theorem accessOk_reserved (hlow : 0x034 ≤ off) (hhigh : off < 0x100) : accessOk p kind off n = false := by
  simp [accessOk, Nat.not_lt.mpr hlow, hhigh]

theorem accessOk_buffer_eq_false_iff (h : 0x100 ≤ off) :
    accessOk p kind off n = false ↔ 0x100 + 48 * p.ledCount ≤ off ∨ n ≠ 2 ∨ off % 2 ≠ 0 := by
  have hregisters : ¬off < 0x034 := by omega
  simp only [accessOk, if_neg hregisters, if_neg (Nat.not_lt.mpr h), decide_eq_false_iff_not]
  omega

end

/-! ### A failing access (R166) -/

section
variable {s : State} {off n : Nat}

theorem memRead_of_not_accessOk (hf : s.fault = false) (h : accessOk s.cfg .load off n = false) :
    memRead off n s = raiseFault .accessFault s := by
  simp [memRead, refuseLoad, h, hf]

theorem memWrite_of_not_accessOk (v : BusData) (hf : s.fault = false) (h : accessOk s.cfg .store off n = false) :
    memWrite off n v s = .next (raiseFault .accessFault s) := by
  simp [memWrite, refuseStore, h, hf]

end

/-! ### The block's window in the host's address space (R165) -/

section
variable {p : Config.Params} {a : Nat}

theorem resolve_absolute_of_mem_window (hlow : p.blockBase ≤ a) (hhigh : a < p.blockBase + 0x20000) :
    (HostAddr.absolute a).resolve p = some (a - p.blockBase) :=
  if_pos ⟨hlow, hhigh⟩

theorem resolve_absolute_of_notMem_window (h : a < p.blockBase ∨ p.blockBase + 0x20000 ≤ a) :
    (HostAddr.absolute a).resolve p = none := by
  have hout : ¬(p.blockBase ≤ a ∧ a < p.blockBase + windowSize) := by unfold windowSize; omega
  exact if_neg hout

/-- A distance inside the window fits the 17 bits of an offset. -/
theorem resolve_window_ofNat {off : Nat} (h : off < 0x20000) :
    (HostAddr.window (BitVec.ofNat 17 off)).resolve p = some off :=
  congrArg some ((BitVec.toNat_ofNat ..).trans (Nat.mod_eq_of_lt h))

end

/-! ### An access by where its address resolves to (R161 to R165) -/

section
variable {s : State} {addr : HostAddr} {off : Nat} (n : Nat) (v : BusData)

theorem busLoad_of_resolve_eq_some (h : addr.resolve s.cfg = some off) : busLoad addr n s = memRead off n s := by
  rw [busLoad, h]

theorem busStore_of_resolve_eq_some (h : addr.resolve s.cfg = some off) :
    busStore addr n v s = memWrite off n v s := by
  rw [busStore, h]

theorem busLoad_of_resolve_eq_none (h : addr.resolve s.cfg = none) : busLoad addr n s = setReply .elsewhere s := by
  rw [busLoad, h]

theorem busStore_of_resolve_eq_none (h : addr.resolve s.cfg = none) :
    busStore addr n v s = .next (setReply .elsewhere s) := by
  rw [busStore, h]

end

end Sys2Proof.Machine
end

section
/-! PROOFS. The statements of construction and host access (45_construction_and_host_access.md). -/

namespace Sys2Proof.Safety

open Sys2Proof Sys2Proof.Machine

/-- Settles O46: the check's cases part by part of the window, and the first fault sets FAULT, FCODE and the mark alone. -/
theorem accessCheckCases : Obligations.AccessCheckCases := by
  unfold Obligations.AccessCheckCases
  constructor
  · intro p kind off n
    obtain hreg | hreserved | hbuffer : off < 0x034 ∨ (0x034 ≤ off ∧ off < 0x100) ∨ 0x100 ≤ off := by omega
    · rw [accessOk_register_eq_false_iff hreg]
      grind
    · simp only [accessOk_reserved hreserved.1 hreserved.2, true_iff]
      omega
    · rw [accessOk_buffer_eq_false_iff hbuffer]
      grind
  · intro s off n v hf
    have hraise := raiseFault_of_not_fault (c := .accessFault) hf
    exact ⟨fun h => (memRead_of_not_accessOk hf h).trans hraise,
      fun h => (memWrite_of_not_accessOk v hf h).trans (congrArg _ hraise)⟩

/-- Settles O18: past the checks INIT's effect is `construct`. -/
theorem initConstructsTheBlock : Obligations.InitConstructsTheBlock := by
  unfold Obligations.InitConstructsTheBlock
  intro s hf ho hc
  exact exec_init_of_configOk hf ho hc

/-- Settles O19: the clauses on the timing inputs hold, and a capacity of 24 N slots is whole chunks. -/
theorem configOkClauses : Obligations.ConfigOkClauses := by
  unfold Obligations.ConfigOkClauses
  intro p
  have hchunks : capacity p % 24 = 0 := Nat.mul_mod_right 24 p.ledCount
  simp only [configOk, duties_increase_below_period, resetTicks_eq, hchunks, Bool.and_eq_true, decide_eq_true_eq,
    Nat.reduceLeDiff, true_and, and_true, and_assoc]
  exact Iff.rfl

/-- Settles O52: where the address resolves to decides the access, and the step of a load or a store runs it. -/
theorem onlyTheWindowBelongsToTheBlock : Obligations.OnlyTheWindowBelongsToTheBlock := by
  unfold Obligations.OnlyTheWindowBelongsToTheBlock
  refine ⟨fun s a n v => ⟨fun hlow hhigh => ?inside, fun hout => ?outside⟩, ?reaches, ?steps⟩
  case inside =>
    have habsolute := resolve_absolute_of_mem_window hlow hhigh
    have hdistance : a - s.cfg.blockBase < 0x20000 := by omega
    exact ⟨habsolute, habsolute.trans (resolve_window_ofNat hdistance).symm⟩
  case outside =>
    have hnone := resolve_absolute_of_notMem_window hout
    exact ⟨busLoad_of_resolve_eq_none n hnone, busStore_of_resolve_eq_none n v hnone⟩
  case reaches =>
    intro s addr off n v h
    exact ⟨busLoad_of_resolve_eq_some n h, busStore_of_resolve_eq_some n v h⟩
  case steps =>
    intro s task addr n v rest
    exact ⟨step_of_nextEvent_eq_host, step_of_nextEvent_eq_host⟩

end Sys2Proof.Safety
end

section
/-! PROOFS. The halted block (R163, R182): what it ignores, what its loads return, and that FAULT and FCODE never steer a
tick. -/

namespace Sys2Proof.Machine

/-! ### Accesses while FAULT = 1 (R163, R182) -/

section
variable {s : State} {off n : Nat}

/-- While FAULT = 1 every store is ignored, whatever its offset and width (R182). -/
theorem memWrite_of_fault (v : BusData) (hf : s.fault = true) : memWrite off n v s = .next s := by
  have hrefuse : refuseStore s = s := if_pos hf
  have hstore : storeBuf (slotOfOffset off) (v.setWidth 16) s = s := if_pos hf
  have hdeliver : deliver (v.setWidth 32) s = .next s := if_pos hf
  rw [memWrite, hrefuse, hstore, hdeliver, ite_self, ite_self]

/-- While FAULT = 1 the load of a slot returns a draw, in every STATE (R182). -/
theorem loadSlot_of_fault {i : Nat} (hf : s.fault = true) : loadSlot i s = replyDraw 2 s :=
  if_pos hf

/-- While FAULT = 1 a load that fails the access check returns a draw of its width (log 16). -/
theorem memRead_of_fault_of_not_accessOk (hf : s.fault = true) (h : accessOk s.cfg .load off n = false) :
    memRead off n s = replyDraw n s := by
  simp [memRead, refuseLoad, h, hf]

end

/-! ### FAULT and FCODE do not steer the clock (R182) -/

/-- The state with other values of FAULT and FCODE. -/
def withFault (f : Bool) (c : BitVec 4) (s : State) : State := { s with fault := f, fcode := c }

section
variable (f : Bool) (c : BitVec 4) (s : State)

theorem latchSlot_withFault (i : Nat) : latchSlot i (withFault f c s) = withFault f c (latchSlot i s) := by
  unfold latchSlot
  rw [apply_ite (withFault f c)]
  rfl

theorem tickLat_withFault : tickLat (withFault f c s) = withFault f c (tickLat s) := by
  unfold tickLat
  rw [apply_ite (withFault f c), ← latchSlot_withFault]
  rfl

theorem advanceBit_withFault : advanceBit (withFault f c s) = withFault f c (advanceBit s) := by
  unfold advanceBit
  rw [apply_ite (withFault f c), apply_ite (withFault f c), ← latchSlot_withFault]
  rfl

theorem tickGap_withFault : tickGap (withFault f c s) = withFault f c (tickGap s) := by
  unfold tickGap
  rw [apply_ite (withFault f c)]
  rfl

/-- The sequencer does not look at FAULT or FCODE (R131, R182). -/
theorem tickSeq_withFault : tickSeq (withFault f c s) = withFault f c (tickSeq s) := by
  have hphase : (withFault f c s).seq.phase = s.seq.phase := rfl
  unfold tickSeq
  rw [hphase]
  cases s.seq.phase with
  | off => rfl
  | lat => exact tickLat_withFault f c s
  | bits => exact advanceBit_withFault f c (emitBit s)
  | gap => exact tickGap_withFault f c s

theorem countDown_withFault : countDown (withFault f c s) = withFault f c (countDown s) := by
  unfold countDown
  rw [apply_ite (withFault f c)]
  rfl

/-- The timer's half of a tick differs in FAULT and FCODE alone: only the record of a failure reads FAULT (R28, R146). -/
theorem tickTimer_withFault : ∃ f' c', tickTimer (withFault f c s) = withFault f' c' (tickTimer s) := by
  unfold tickTimer
  by_cases hwait : s.owner = .waiting ∧ s.timer.failed = false
  · by_cases hfail : (s.cfg.timerMayFail && Config.timerFail s.draws) = true
    · refine ⟨true, (failTimer (withFault f c s)).fcode, ?_⟩
      rw [if_pos hwait, if_pos hfail]
      exact (if_pos hwait).trans (if_pos hfail)
    · refine ⟨f, c, ?_⟩
      rw [if_pos hwait, if_neg hfail, ← countDown_withFault]
      exact (if_pos hwait).trans (if_neg hfail)
  · refine ⟨f, c, ?_⟩
    rw [if_neg hwait]
    exact if_neg hwait

/-- A tick under other values of FAULT and FCODE differs in these alone (R182). -/
theorem tick_withFault : ∃ f' c', tick (withFault f c s) = withFault f' c' (tick s) := by
  rw [tick, tickSeq_withFault]
  exact tickTimer_withFault f c (tickSeq s)

end

end Sys2Proof.Machine
end

section
/-! PROOFS. The statements of the exceptions (60_exceptions.md). -/

namespace Sys2Proof.Safety

open Sys2Proof Sys2Proof.Machine

/-- Settles O51: each access is one branch of the bus rules, and a tick with FAULT = 0 instead differs in FAULT and FCODE
alone. -/
theorem faultedBlockGoesOn : Obligations.FaultedBlockGoesOn := by
  unfold Obligations.FaultedBlockGoesOn
  intro s j off n i v hf
  obtain ⟨f, c, htick⟩ := tick_withFault false s.fcode s
  have hsame : tick { s with fault := false } = withFault f c (tick s) := htick
  rw [hsame]
  exact ⟨exec_of_fault hf, memWrite_of_fault v hf,
    fun hi => (memRead_offsetOfSlot hi).trans (loadSlot_of_fault hf),
    memRead_of_fault_of_not_accessOk hf,
    fun hlow hhigh haligned => memRead_register s ⟨hlow, hhigh, haligned⟩, rfl, rfl, rfl⟩

/-- Settles O11: the next event decides the rule, and a tick, a power-on reset and every host step answer a next state. -/
theorem everyStepAnswersNext : Obligations.EveryStepAnswersNext := by
  unfold Obligations.EveryStepAnswersNext
  intro s
  match hnext : nextEvent s s.agenda with
  | none => exact ⟨_, step_of_nextEvent_eq_none hnext⟩
  | some (.tick, rest) => exact ⟨_, step_of_nextEvent_eq_tick hnext⟩
  | some (.powerOn, rest) => exact ⟨_, step_of_nextEvent_eq_powerOn hnext⟩
  | some (.host task op, rest) =>
    obtain ⟨t, hrun, -⟩ := runHostOp_effect op (hostTurn task rest s)
    exact ⟨t, (step_of_nextEvent_eq_host hnext).trans hrun⟩

/-- Settles O45: the sequencer's half of the tick ends the gap, and the timer's half expires. -/
theorem gapEndAndExpiryShareATick : Obligations.GapEndAndExpiryShareATick := by
  unfold Obligations.GapEndAndExpiryShareATick
  intro s hp hc ho hr hf hmay
  have hgap : InGap s 1 := ⟨hp, hc⟩
  have hwait : InWait s 1 := ⟨ho, hr, hf, hmay⟩
  refine ⟨hgap.tick_last, ?_⟩
  rw [hwait.tick_last]
  exact ⟨rfl, rfl, rfl⟩

end Sys2Proof.Safety
end

section
/-! PROOFS. What a host step leaves of the trace, the agenda and the sequencer (R37, R121), and how many steps an agenda lasts
until the clock ticks (R214). -/

namespace Sys2Proof.Machine

open Sys2Proof.Safety

/-! ### The trace and the agenda under a host step (R37, log 1) -/

@[simp] theorem encodeColour_trace (r g b : Byte) (s : State) : (encodeColour r g b s).trace = s.trace := by
  rw [encodeColour_frame]

@[simp] theorem encodeColour_agenda (r g b : Byte) (s : State) : (encodeColour r g b s).agenda = s.agenda := by
  rw [encodeColour_frame]

/-- No command records a level (R37). -/
theorem CommandEffect.trace_eq {u t : State} {i : Instr} (h : CommandEffect u i t) : t.trace = u.trace := by
  cases h <;> simp

/-- Only ticks record a level (R37). -/
theorem HostEffect.trace_eq {op : HostOp} {u t : State} (h : HostEffect op u t) : t.trace = u.trace := by
  cases h
  case command ht => exact ht.trace_eq
  case returned hu _ => obtain rfl | ⟨r, rfl⟩ := hu <;> rfl
  all_goals rfl

/-- Commands add no event to the agenda; CANCEL takes the dropped task's away (log 3). -/
theorem CommandEffect.agenda_sublist {u t : State} {i : Instr} (h : CommandEffect u i t) :
    t.agenda.Sublist u.agenda := by
  cases h
  case push r g b _ _ => rw [encodeColour_agenda]
  case cancel =>
    rw [cancelWait_agenda]
    unfold dropTask
    split
    · exact .refl _
    · exact List.filter_sublist
  all_goals exact .refl _

/-! ### What a host step does to the sequencer (R110, R121) -/

/-- A command leaves the sequencer, but for new marks, or it is an accepted TRIG (R110, R121, R131). -/
theorem CommandEffect.seq_cases {u t : State} {i : Instr} (h : CommandEffect u i t) :
    t.seq = { u.seq with dirty := t.seq.dirty }
      ∨ (u.seq.phase = .off ∧ t = acceptTrigger (countRefusalDraw u)) := by
  cases h
  case push r g b _ _ => exact .inl (encodeColour_seq r g b u)
  case accept hr => exact .inr ⟨seq_off_of_not_refuses hr, rfl⟩
  all_goals exact .inl rfl

theorem HostEffect.seq_cases {op : HostOp} {u t : State} (h : HostEffect op u t) :
    t.seq = { u.seq with dirty := t.seq.dirty }
      ∨ (u.seq.phase = .off ∧ t = acceptTrigger (countRefusalDraw u)) := by
  cases h
  case command ht => exact ht.seq_cases
  case returned hu _ => obtain rfl | ⟨r, rfl⟩ := hu <;> exact .inl rfl
  all_goals exact .inl rfl

/-! ### How many steps an agenda lasts (R214) -/

/-- The most steps an event leads to: its own, and the two that WRITE's branch adds (R84, log 22). -/
def eventSteps : Event → Nat
  | .tick => 1
  | .powerOn => 1
  | .host _ (.load _ _) => 1
  | .host _ (.store _ _ _) => 1
  | .host _ (.checkResult _) => 3
  | .host _ (.finishWrite _) => 1

/-- The most steps that the events of an agenda lead to. -/
def agendaSteps (l : List Event) : Nat := (l.map eventSteps).sum

theorem agendaSteps_append (l l' : List Event) : agendaSteps (l ++ l') = agendaSteps l + agendaSteps l' := by
  simp [agendaSteps]

theorem agendaSteps_cons (e : Event) (l : List Event) : agendaSteps (e :: l) = eventSteps e + agendaSteps l := by
  simp [agendaSteps]

theorem agendaSteps_le_of_sublist {l l' : List Event} (h : l.Sublist l') : agendaSteps l ≤ agendaSteps l' :=
  (h.map eventSteps).sum_le_sum fun _ _ => Nat.zero_le _

theorem eventSteps_pos (e : Event) : 0 < eventSteps e := by
  unfold eventSteps
  split <;> decide

theorem eventSteps_le_three (e : Event) : eventSteps e ≤ 3 := by
  unfold eventSteps
  split <;> decide

theorem agendaSteps_le (l : List Event) : agendaSteps l ≤ 3 * l.length := by
  induction l with
  | nil => exact Nat.le_refl 0
  | cons e l ih =>
    have he := eventSteps_le_three e
    rw [agendaSteps_cons, List.length_cons]
    omega

/-- The next event's steps are counted in the agenda's, beside those of the events left. -/
theorem agendaSteps_of_nextEvent {s : State} {e : Event} {rest : List Event}
    (h : nextEvent s s.agenda = some (e, rest)) : agendaSteps s.agenda = eventSteps e + agendaSteps rest := by
  obtain ⟨pre, post, hagenda, hrest, -⟩ := nextEvent_split h
  rw [hagenda, hrest, agendaSteps_append, agendaSteps_append, agendaSteps_cons]
  omega

/-- A host step uses up one of its event's steps: WRITE's branch adds two single steps, and nothing else adds any (log 22). -/
theorem HostEffect.agendaSteps_lt {op : HostOp} {u t : State} (h : HostEffect op u t) (task : Nat) :
    agendaSteps t.agenda < eventSteps (.host task op) + agendaSteps u.agenda := by
  have hpos := eventSteps_pos (.host task op)
  cases h
  case command ht =>
    have hle := agendaSteps_le_of_sublist ht.agenda_sublist
    omega
  case waitNext mode hop r =>
    subst hop
    show agendaSteps (asTask _ _ ++ u.agenda) < 3 + agendaSteps u.agenda
    have htwo : agendaSteps (asTask u.host.task [storeCommand (waitCommand mode), .finishWrite .ok]) = 2 := rfl
    rw [agendaSteps_append, htwo]
    omega
  case returned hu _ => obtain rfl | ⟨r, rfl⟩ := hu <;> exact Nat.lt_add_of_pos_left hpos
  all_goals exact Nat.lt_add_of_pos_left hpos

/-- A step records a level, or it uses up a step of the agenda (R14, R214). -/
theorem step_ticks_or_uses_agenda {s t : State} (h : step s = .next t) :
    t.trace.length = s.trace.length + 1 ∨ (t.trace = s.trace ∧ agendaSteps t.agenda < agendaSteps s.agenda) := by
  obtain ⟨rest, rfl⟩ | ⟨task, op, rest, hn, he⟩ | ⟨rest, hn, rfl⟩ := step_cases h
  · left
    rw [tick_trace, tickSeq_trace]
    rfl
  · right
    rw [agendaSteps_of_nextEvent hn]
    exact ⟨he.trace_eq, he.agendaSteps_lt task⟩
  · right
    rw [agendaSteps_of_nextEvent hn]
    exact ⟨rfl, Nat.lt_add_of_pos_left (eventSteps_pos _)⟩

theorem run_succ_of_step (M : Host.Core) {s t : M.State} (h : M.step s = .next t) (k : Nat) :
    M.run (k + 1) s = M.run k t := by
  rw [Host.Core.run, h]

/-- Once the steps of the agenda are used up, the clock ticks (R214). -/
theorem exists_run_one_tick {n : Nat} {s : State} (hn : agendaSteps s.agenda ≤ n) :
    ∃ k t, k ≤ n + 1 ∧ Sys2Proof.core.run k s = .next t ∧ t.trace.length = s.trace.length + 1 := by
  induction n generalizing s with
  | zero =>
    obtain ⟨u, hu⟩ := everyStepAnswersNext s
    obtain htick | ⟨-, hlt⟩ := step_ticks_or_uses_agenda hu
    · exact ⟨1, u, Nat.le_refl 1, run_succ_of_step Sys2Proof.core hu 0, htick⟩
    · omega
  | succ n ih =>
    obtain ⟨u, hu⟩ := everyStepAnswersNext s
    obtain htick | ⟨htrace, hlt⟩ := step_ticks_or_uses_agenda hu
    · exact ⟨1, u, by omega, run_succ_of_step Sys2Proof.core hu 0, htick⟩
    · obtain ⟨k, t, hk, hrun, hlen⟩ := ih (s := u) (by omega)
      exact ⟨k + 1, t, by omega, (run_succ_of_step Sys2Proof.core hu k).trans hrun, by rw [hlen, htrace]⟩

end Sys2Proof.Machine
end

section
/-! PROOFS. How many ticks of a pass are left (R124, R127), and what a wait after them finds (R205). -/

namespace Sys2Proof.Machine

/-! ### How many ticks of the pass are left (R124, R127) -/

/-- The sequencer `q` is off, or in a pass over `cap` slots with `n` ticks left: each slot takes 20, and the gap 4320. -/
inductive PassLeft (cap : Nat) (q : Sequencer) (n : Nat) : Prop
  | off (hp : q.phase = .off) (hn : n = 0)
  | lat (hp : q.phase = .lat) (hcnt : 0 < q.cnt) (hn : n = q.cnt + 20 * cap + 4320)
  | bits (hp : q.phase = .bits) (htick : q.tick < 20) (hslot : q.slot < cap)
      (hn : n = 20 * (cap - q.slot) - q.tick + 4320)
  | gap (hp : q.phase = .gap) (hcnt : 0 < q.cnt) (hn : n = q.cnt)

section
variable {s t : State} {n : Nat}

/-- No tick of the pass is left exactly if the sequencer is off. -/
theorem PassLeft.off_iff {cap : Nat} {q : Sequencer} (h : PassLeft cap q n) : q.phase = .off ↔ n = 0 := by
  cases h with
  | off hp hn => simp [hp, hn]
  | lat hp _ hn => simp [hp, hn]
  | bits hp _ _ hn => simp [hp, hn]
  | gap hp hcnt hn => simp [hp, hn, hcnt.ne']

/-- Every tick takes one from what is left of the pass (R124). -/
theorem PassLeft.tick (h : PassLeft (capacity s.cfg) s.seq n) (hcap : 0 < capacity s.cfg) :
    PassLeft (capacity s.cfg) (tick s).seq (n - 1) := by
  rw [tick_seq]
  cases h with
  | off hp hn =>
    rw [tickSeq_off hp]
    exact .off hp (by omega)
  | lat hp hcnt hn =>
    obtain ⟨hlast, hcount⟩ := tickSeq_lat hp
    by_cases hc : s.seq.cnt - 1 = 0
    · obtain ⟨w, hq⟩ := hlast hc
      rw [hq]
      exact .bits rfl (Nat.zero_lt_succ 19) hcap (by dsimp only; omega)
    · rw [hcount hc]
      exact .lat hp (Nat.pos_of_ne_zero hc) (by dsimp only; omega)
  | bits hp htick hslot hn =>
    obtain ⟨hwithin, hend, hnext⟩ := tickSeq_bits hp
    rw [periodTicks_eq] at hwithin hend hnext
    by_cases ht : s.seq.tick + 1 = 20
    · by_cases hs : s.seq.slot + 1 = capacity s.cfg
      · rw [hend ht hs]
        exact .gap rfl (show 0 < resetTicks by decide) (by dsimp only; rw [resetTicks_eq]; omega)
      · obtain ⟨w, hq⟩ := hnext ht hs
        rw [hq]
        exact .bits hp (Nat.zero_lt_succ 19) (by dsimp only; omega) (by dsimp only; omega)
    · rw [hwithin ht]
      exact .bits hp (by dsimp only; omega) hslot (by dsimp only; omega)
  | gap hp hcnt hn =>
    obtain ⟨hlast, hcount⟩ := tickSeq_gap hp
    by_cases hc : s.seq.cnt - 1 = 0
    · rw [hlast hc]
      exact .off rfl (by omega)
    · rw [hcount hc]
      exact .gap hp (Nat.pos_of_ne_zero hc) (by dsimp only; omega)

theorem PassLeft.ticks (h : PassLeft (capacity s.cfg) s.seq n) (hcap : 0 < capacity s.cfg) (k : Nat) :
    PassLeft (capacity s.cfg) (ticks k s).seq (n - k) := by
  induction k with
  | zero => exact h
  | succ k ih =>
    rw [ticks_succ, Nat.sub_succ', ← ticks_cfg k s]
    rw [← ticks_cfg k s] at ih hcap
    exact ih.tick hcap

/-- An accepted TRIG has the start latency, the slots and the gap ahead of it (R121, R127). -/
theorem passLeft_acceptTrigger (hcap : 0 < capacity s.cfg) :
    PassLeft (capacity s.cfg) (acceptTrigger s).seq (s.cfg.startLatency + 20 * capacity s.cfg + 4320) := by
  rw [acceptTrigger_seq]
  split
  · rename_i hl
    exact .bits rfl (Nat.zero_lt_succ 19) hcap (by dsimp only; omega)
  · rename_i hl
    exact .lat rfl (Nat.pos_of_ne_zero hl) rfl

theorem passLeft_ticks_acceptTrigger (hcap : 0 < capacity s.cfg) (k : Nat) :
    PassLeft (capacity s.cfg) (ticks k (acceptTrigger s)).seq
      (s.cfg.startLatency + 20 * capacity s.cfg + 4320 - k) :=
  PassLeft.ticks (s := acceptTrigger s) (passLeft_acceptTrigger hcap) hcap k

/-! ### Ticks before the wait, and the wait command (R140, R141, R205) -/

/-- Outside WAITING the timer does nothing (R145). -/
theorem tick_of_not_waiting (ho : s.owner ≠ .waiting) : tick s = tickSeq s :=
  if_neg (by simp [ho])

/-- Until a wait starts, ticks leave STATE, FAULT and the timer (R131, R145). -/
theorem ticks_of_not_waiting (ho : s.owner ≠ .waiting) (k : Nat) :
    (ticks k s).owner = s.owner ∧ (ticks k s).fault = s.fault ∧ (ticks k s).timer = s.timer := by
  induction k with
  | zero => exact ⟨rfl, rfl, rfl⟩
  | succ k ih =>
    obtain ⟨howner, hfault, htimer⟩ := ih
    rw [ticks_succ, tick_of_not_waiting (howner ▸ ho)]
    simp [howner, hfault, htimer]

/-- From an accepted TRIG on, until a wait starts, STATE is TRANSMITTING (R121). -/
theorem ticks_acceptTrigger (s : State) (k : Nat) :
    (ticks k (acceptTrigger s)).owner = .transmitting ∧ (ticks k (acceptTrigger s)).fault = s.fault
      ∧ (ticks k (acceptTrigger s)).timer = s.timer :=
  ticks_of_not_waiting (s := acceptTrigger s) nofun k

/-- The waits leave the sequencer and the parameters (R131). -/
theorem seq_eq_of_exec_wait {i : Instr} (hi : i = .waitb ∨ i = .waits) (hf : s.fault = false)
    (ho : s.owner = .transmitting) (h : exec i s = .next t) : t.seq = s.seq ∧ t.cfg = s.cfg := by
  obtain rfl | rfl := hi
  · rw [exec_waitb_of_transmitting hf ho] at h
    injection h with h
    exact h ▸ ⟨rfl, rfl⟩
  · rw [exec_waits_of_transmitting hf ho] at h
    injection h with h
    exact h ▸ ⟨rfl, rfl⟩

end

end Sys2Proof.Machine
end

section
/-! PROOFS. The account of the reset gap's LOW ticks: every step keeps it, and a further pass begins after the whole gap
(R208). -/

namespace Sys2Proof.Safety

open Sys2Proof Sys2Proof.Machine

/-! ### The account of the gap, by the phase reached (R208) -/

section
variable {t : State}

theorem gapInv_of_off (hp : t.seq.phase = .off) (h : t.seq.slot ≠ 0 → resetTicks ≤ lowRun t) : GapInv t :=
  ⟨by simp [hp], fun _ => h, by simp [hp]⟩

theorem gapInv_of_lat (hp : t.seq.phase = .lat)
    (h : t.seq.slot ≠ 0 → resetTicks + (t.cfg.startLatency - t.seq.cnt) ≤ lowRun t) : GapInv t :=
  ⟨by simp [hp], by simp [hp], fun _ => h⟩

theorem gapInv_of_bits (hp : t.seq.phase = .bits) : GapInv t :=
  ⟨by simp [hp], by simp [hp], by simp [hp]⟩

theorem gapInv_of_gap (hp : t.seq.phase = .gap) (h : resetTicks - t.seq.cnt ≤ lowRun t) : GapInv t :=
  ⟨fun _ => h, by simp [hp], by simp [hp]⟩

end

/-! ### Ticks (R124, R208) -/

section
variable {s : State}

/-- Each tick after INIT that begins outside BITS is one more LOW tick without a break (R37, R124). -/
theorem lowRun_tick (hbound : s.binding ≠ none) (hp : s.seq.phase ≠ .bits) : lowRun (tick s) = lowRun s + 1 := by
  have hlow : (tickSeq s).line = .low := (tick_line s).symm.trans (lineIsLowOutsideBits s hbound hp)
  rw [lowRun, tick_trace, tickSeq_trace, hlow]
  simp [lowRun]

/-- A sequencer that has sent a slot, or that is not off, is bound (R160). -/
theorem Inv.bound (h : Inv s) (hs : s.seq.phase ≠ .off ∨ s.seq.slot ≠ 0) : s.binding ≠ none := by
  have ho : s.owner ≠ .uninit := by
    intro ho
    obtain ⟨-, hslot⟩ := h.hostSide.unbuilt ho
    exact hs.elim (· (h.spec.uninit_off ho)) (· hslot)
  rw [(h.hostSide.built ho).1]
  exact Option.some_ne_none _

theorem GapInv.tick (h : GapInv s) (hi : Inv s) : GapInv (tick s) := by
  cases hp : s.seq.phase with
  | off =>
    have hq := tickSeq_off hp
    refine gapInv_of_off (by simp [hq, hp]) fun hslot => ?_
    have hslot : s.seq.slot ≠ 0 := by simpa [hq] using hslot
    have hlow := h.off_after hp hslot
    rw [lowRun_tick (hi.bound (.inr hslot)) (by simp [hp])]
    omega
  | lat =>
    obtain ⟨hlast, hcount⟩ := tickSeq_lat hp
    by_cases hc : s.seq.cnt - 1 = 0
    · obtain ⟨w, hq⟩ := hlast hc
      exact gapInv_of_bits (by simp [hq])
    · have hq := hcount hc
      refine gapInv_of_lat (by simp [hq, hp]) fun hslot => ?_
      have hlow := h.lat_after hp (by simpa [hq] using hslot)
      rw [lowRun_tick (hi.bound (.inl (by simp [hp]))) (by simp [hp])]
      simp only [tick_seq, tick_cfg, hq]
      omega
  | bits =>
    obtain ⟨hwithin, hend, hnext⟩ := tickSeq_bits hp
    by_cases ht : s.seq.tick + 1 = periodTicks
    · by_cases hs : s.seq.slot + 1 = capacity s.cfg
      · have hq := hend ht hs
        exact gapInv_of_gap (by simp [hq]) (by simp [hq])
      · obtain ⟨w, hq⟩ := hnext ht hs
        exact gapInv_of_bits (by simp [hq, hp])
    · have hq := hwithin ht
      exact gapInv_of_bits (by simp [hq, hp])
  | gap =>
    obtain ⟨hlast, hcount⟩ := tickSeq_gap hp
    have hlow := h.in_gap hp
    have hrun := lowRun_tick (hi.bound (.inl (by simp [hp]))) (by simp [hp])
    by_cases hc : s.seq.cnt - 1 = 0
    · have hq := hlast hc
      exact gapInv_of_off (by simp [hq]) fun _ => by omega
    · have hq := hcount hc
      refine gapInv_of_gap (by simp [hq, hp]) ?_
      simp only [tick_seq, hq]
      omega

/-- Only the last tick of LAT begins the slots (R124). -/
theorem lat_of_tick_starts (hs : s.seq.phase ≠ .bits) (ht : (tick s).seq.phase = .bits) :
    s.seq.phase = .lat ∧ s.seq.cnt - 1 = 0 := by
  rw [tick_seq] at ht
  cases hp : s.seq.phase with
  | off => simp [tickSeq_off hp, hp] at ht
  | lat =>
    obtain ⟨-, hcount⟩ := tickSeq_lat hp
    by_contra hc
    simp [hcount (by simpa using hc), hp] at ht
  | bits => exact absurd hp hs
  | gap =>
    obtain ⟨hlast, hcount⟩ := tickSeq_gap hp
    by_cases hc : s.seq.cnt - 1 = 0
    · simp [hlast hc] at ht
    · simp [hcount hc, hp] at ht

/-- The tick that begins the slots of a further pass ends a run of RESET_TICKS + λ LOW ticks (R208). -/
theorem GapInv.le_lowRun_of_tick_starts (h : GapInv s) (hi : Inv s) (hs : s.seq.phase ≠ .bits)
    (ht : (Machine.tick s).seq.phase = .bits) (hslot : s.seq.slot ≠ 0) :
    resetTicks + s.cfg.startLatency ≤ lowRun (Machine.tick s) := by
  obtain ⟨hp, hc⟩ := lat_of_tick_starts hs ht
  have hlow := h.lat_after hp hslot
  rw [lowRun_tick (hi.bound (.inr hslot)) hs]
  omega

end

/-! ### Host steps (R121, R208) -/

section
variable {s t : State}

/-- The account reads the sequencer's phase, slot and counter, the start latency and the trace. -/
theorem GapInv.of_marked (h : GapInv s) (hcfg : t.cfg = s.cfg) (htrace : t.trace = s.trace)
    (hseq : t.seq = { s.seq with dirty := t.seq.dirty }) : GapInv t := by
  have hrun : lowRun t = lowRun s := by rw [lowRun, htrace, lowRun]
  obtain ⟨in_gap, off_after, lat_after⟩ := h
  rw [← hrun] at *
  rw [← hcfg] at lat_after
  generalize t.seq.dirty = d at hseq
  constructor <;> rw [hseq] <;> assumption

/-- A further pass starts from the whole gap: with a start latency in LAT, without one at slot 0 (R121). -/
theorem GapInv.acceptTrigger (h : GapInv s) (hoff : s.seq.phase = .off) : GapInv (acceptTrigger s) := by
  by_cases hl : s.cfg.startLatency = 0
  · exact gapInv_of_bits (by simp [hl])
  · refine gapInv_of_lat (by simp [hl]) fun hslot => ?_
    have hlow := h.off_after hoff (by simpa [hl] using hslot)
    have hrun : lowRun (Machine.acceptTrigger s) = lowRun s := rfl
    simpa [hl, hrun] using hlow

/-- An accepted TRIG begins the slots itself only without a start latency (R121). -/
theorem GapInv.le_lowRun_of_accept_starts (h : GapInv s) (hoff : s.seq.phase = .off)
    (ht : (Machine.acceptTrigger s).seq.phase = .bits) (hslot : s.seq.slot ≠ 0) :
    resetTicks + s.cfg.startLatency ≤ lowRun (Machine.acceptTrigger s) := by
  have hl : s.cfg.startLatency = 0 := by
    by_contra hl
    simp [hl] at ht
  rw [hl]
  exact h.off_after hoff hslot

/-! ### Steps (R208) -/

theorem GapInv.step (h : GapInv s) (hi : Inv s) (hs : step s = .next t) : GapInv t := by
  obtain ⟨rest, rfl⟩ | ⟨task, op, rest, -, he⟩ | ⟨rest, -, rfl⟩ := step_cases hs
  · have hr : GapInv (setAgenda rest s) := { h with }
    exact hr.tick (hi.withRecords _ _ rfl rfl)
  · have hu : GapInv (hostTurn task rest s) := { h with }
    obtain hseq | ⟨hoff, rfl⟩ := he.seq_cases
    · exact hu.of_marked he.cfg_eq he.trace_eq hseq
    · have hc : GapInv (countRefusalDraw (hostTurn task rest s)) := { hu with }
      exact hc.acceptTrigger hoff
  · exact gapInv_of_off rfl (absurd rfl)

/-- A step that begins the slots of a further pass finds RESET_TICKS + λ LOW ticks without a break (R208). -/
theorem GapInv.le_lowRun_of_step_starts (h : GapInv s) (hi : Inv s) (hs : Machine.step s = .next t)
    (hp : s.seq.phase ≠ .bits) (ht : t.seq.phase = .bits) (hslot : s.seq.slot ≠ 0) :
    resetTicks + s.cfg.startLatency ≤ lowRun t := by
  obtain ⟨rest, rfl⟩ | ⟨task, op, rest, -, he⟩ | ⟨rest, -, rfl⟩ := step_cases hs
  · have hr : GapInv (setAgenda rest s) := { h with }
    exact hr.le_lowRun_of_tick_starts (hi.withRecords _ _ rfl rfl) hp ht hslot
  · obtain hseq | ⟨hoff, rfl⟩ := he.seq_cases
    · rw [hseq] at ht
      exact absurd ht hp
    · have hc : GapInv (countRefusalDraw (hostTurn task rest s)) := { h with }
      exact hc.le_lowRun_of_accept_starts hoff ht hslot
  · cases ht

end

end Sys2Proof.Safety
end

section
/-! PROOFS. The statements of reset and hazards (70_reset_and_hazards.md). -/

namespace Sys2Proof.Safety

open Sys2Proof Sys2Proof.Machine

/-- Settles O41: ticks, host steps and resets each keep the account, and LAT's last tick or TRIG itself begins the slots. -/
theorem resetGapSeparatesFrames : Obligations.ResetGapSeparatesFrames := by
  unfold Obligations.ResetGapSeparatesFrames
  intro s t hi h hs
  rw [← resetTicks_eq]
  exact ⟨h.step hi hs, h.le_lowRun_of_step_starts hi hs⟩

/-- Settles O17: every step but a tick uses up one of the steps that the agenda's events lead to, at most three for each. -/
theorem clockIsFair : Obligations.ClockIsFair := by
  unfold Obligations.ClockIsFair
  exact fun s => exists_run_one_tick (agendaSteps_le s.agenda)

/-- Settles O43: of the pass λ - g ticks are left when the wait ends, since the wait lasts as long as the slots and the gap. -/
theorem completionDelayHasZeroMargin : Obligations.CompletionDelayHasZeroMargin := by
  unfold Obligations.CompletionDelayHasZeroMargin
  intro s t u g i hf ho hr hN hmay hfailed hi htrig hwait
  rw [exec_trig_of_not_refuses hf ho hr] at htrig
  injection htrig with htrig
  have hslots : 20 * capacity s.cfg = 480 * s.cfg.ledCount := by unfold capacity; omega
  have hcap : 0 < capacity s.cfg := by omega
  have hbefore := passLeft_ticks_acceptTrigger (s := countRefusalDraw s) hcap g
  obtain ⟨howner, hfault, htimer⟩ := ticks_acceptTrigger (countRefusalDraw s) g
  have hcfg : (ticks g (acceptTrigger (countRefusalDraw s))).cfg = s.cfg := ticks_cfg ..
  rw [htrig] at hbefore howner hfault htimer hcfg
  have hf := hfault.trans hf
  obtain ⟨hwaits, hidle, -⟩ :=
    waitLastsExactlyTheDelay (ticks g t) u i hf howner hi (hcfg ▸ hmay) (htimer ▸ hfailed) hwait
  obtain ⟨hseq, hucfg⟩ := seq_eq_of_exec_wait hi hf howner hwait
  rw [hcfg] at hwaits hidle hucfg
  have hstart : PassLeft (capacity u.cfg) u.seq (s.cfg.startLatency + 20 * capacity s.cfg + 4320 - g) := by
    rw [hseq, hucfg]
    exact hbefore
  have hend := hstart.ticks (hucfg ▸ hcap) (480 * s.cfg.ledCount + 4320)
  refine ⟨hwaits, hidle, hend.off_iff.trans ?_⟩
  omega

end Sys2Proof.Safety
end
